-- ==== Sys2Proof/Word.lean ====
section
/-! DEFINITION. The word types of the core and the bank of five element values. -/

namespace Sys2Proof

/-- A bus-visible register value, `REG_W = 32` bits (00_scope.md R17). -/
abbrev Word := BitVec 32

/-- A tick value, `TICK_W = 32` bits (00_scope.md R11). -/
abbrev Tick := BitVec 32

/-- A command word, `CMD_W = 16` bits (00_scope.md R17). -/
abbrev Cmd := BitVec 16

/-- A register number (10_state.md R52). -/
abbrev RegNum := BitVec 8

/-- A fatal code, `FAIL_CODE_W = 8` bits (00_scope.md R18). -/
abbrev FatalCode := BitVec 8

/-- The five Morse timing elements, in the source's index order 0 to 4 (00_scope.md R16). -/
inductive Element where
  | dot
  | dash
  | elementSpace
  | letterSpace
  | wordSpace
deriving DecidableEq, Repr

/-- The element's index (00_scope.md R16). -/
def Element.index : Element → Nat
  | .dot => 0
  | .dash => 1
  | .elementSpace => 2
  | .letterSpace => 3
  | .wordSpace => 4

/-- A bank of five values, one for each element: `DUR`, `TRES`, `CSCALE`, `CFG_SCALE`. -/
structure Bank (α : Type) where
  dot : α
  dash : α
  elementSpace : α
  letterSpace : α
  wordSpace : α
deriving DecidableEq, Repr

/-- The bank's value for one element (`BANK[i]`). -/
def Bank.get {α : Type} (b : Bank α) : Element → α
  | .dot => b.dot
  | .dash => b.dash
  | .elementSpace => b.elementSpace
  | .letterSpace => b.letterSpace
  | .wordSpace => b.wordSpace

/-- The bank whose value for each element `f` gives. -/
def Bank.ofFn {α : Type} (f : Element → α) : Bank α :=
  ⟨f .dot, f .dash, f .elementSpace, f .letterSpace, f .wordSpace⟩

/-- The bank with one value five times. -/
def Bank.const {α : Type} (a : α) : Bank α := ⟨a, a, a, a, a⟩

/-- Does `p` hold of all five values? -/
def Bank.all {α : Type} (p : α → Bool) (b : Bank α) : Bool :=
  p b.dot && p b.dash && p b.elementSpace && p b.letterSpace && p b.wordSpace

end Sys2Proof
end

