-- ==== Sys2Proof/Config.lean ====
section
/-! DEFINITION. What an implementation fixes: the spec's parameters at the defaults it decides (00_scope.md section 4,
92_eei_decisions.md), the fatal codes, and the one value the spec leaves free. -/

namespace Sys2Proof.Config

/-- `HALF = 2^(TICK_W-1)`, half the range of a tick (00_scope.md R11). -/
def half : Tick := 0x80000000#32

/-- `N_PORTS`, the number of serial ports (00_scope.md R13, D4). -/
def nPorts : Nat := 2

/-- `N_EVENT_KINDS`: tick, input, and receive and transmit for each port (00_scope.md R13, D4). -/
def nEventKinds : Nat := 2 + 2 * nPorts

/-- `WPM_MIN` (00_scope.md R14, D15). -/
def wpmMin : BitVec 8 := 1#8

/-- `WPM_MAX` (00_scope.md R14, D15). -/
def wpmMax : BitVec 8 := 100#8

/-- `SCALE_MIN`, the binary32 pattern nearest 0.1 (00_scope.md R15, D16). -/
def scaleMin : Word := 0x3DCCCCCD#32

/-- `SCALE_MAX`, the binary32 pattern of 10.0 (00_scope.md R15, D16). -/
def scaleMax : Word := 0x41200000#32

/-- The unit multipliers `K[0..4] = [1, 3, 1, 3, 7]` (00_scope.md R16). -/
def unitMultiplier : Element → Nat
  | .dot => 1
  | .dash => 3
  | .elementSpace => 1
  | .letterSpace => 3
  | .wordSpace => 7

/-- `FC_EVENT_KIND` (60_exceptions.md R205). -/
def fcEventKind : FatalCode := 0x01#8

/-- `FC_ILLEGAL_CMD` (60_exceptions.md R205). -/
def fcIllegalCmd : FatalCode := 0x02#8

/-- `FC_TIMING_RANGE` (60_exceptions.md R205). -/
def fcTimingRange : FatalCode := 0x03#8

/-- The value of `INDICATOR` at the n-th instant while `FATAL = 1`: the spec gives the failure signal no pattern, so it
is any value (10_state.md R51, 93_implementation_defined.md U7). No body: nothing can be proved of it. Log entry 7. -/
opaque failIndicator : Nat → Bool

end Sys2Proof.Config
end

