-- ==== Sys2Proof/Syntax.lean ====
section
/-! DEFINITION. The command set: one constructor for each row of spec/opcode_table.json. -/

namespace Sys2Proof

/-- The eleven commands of the SKTC command set (30_encoding.md R92). -/
inductive Instr where
  /-- `SINIT`, `scheduler_init()` (40_scheduler.md R112). -/
  | sinit
  /-- `ENQ k`, `scheduler_enqueue_event(kind)` (40_scheduler.md R113); `kind` is the 4-bit field `KIND`. -/
  | enq (kind : BitVec 4)
  /-- `WAIT`, `scheduler_wait()` (40_scheduler.md R116). -/
  | wait
  /-- `GTICK`, `scheduler_get_tick()` (40_scheduler.md R119). -/
  | gtick
  /-- `ELAPSED`, `scheduler_elapsed(now, then)` (40_scheduler.md R120). -/
  | elapsed
  /-- `TGT`, `is_tick_gt(a, b)` (40_scheduler.md R122). -/
  | tgt
  /-- `TGTE`, `is_tick_gte(a, b)` (40_scheduler.md R123). -/
  | tgte
  /-- `TCALC`, `timing_calculate(wpm, scales)` (41_timing.md R144). -/
  | tcalc
  /-- `KINIT`, `keyer_init()` (42_keyer.md R161). -/
  | kinit
  /-- `KTICK`, `keyer_tick(now)` (42_keyer.md R162). -/
  | ktick
  /-- `KPANIC`, `keyer_panic()` (42_keyer.md R180). -/
  | kpanic
deriving DecidableEq, Repr

/-- The mnemonic of 30_encoding.md R92. -/
def Instr.mnemonic : Instr → String
  | .sinit => "SINIT"
  | .enq _ => "ENQ"
  | .wait => "WAIT"
  | .gtick => "GTICK"
  | .elapsed => "ELAPSED"
  | .tgt => "TGT"
  | .tgte => "TGTE"
  | .tcalc => "TCALC"
  | .kinit => "KINIT"
  | .ktick => "KTICK"
  | .kpanic => "KPANIC"

end Sys2Proof
end

