-- ==== Sys2Proof/WellFormed.lean ====
section
/-! DEFINITION. Which commands are legal. -/

namespace Sys2Proof

/-- A legal event kind: 0 to 5 (30_encoding.md R93). -/
def legalKind (kind : BitVec 4) : Bool := kind.toNat < Config.nEventKinds

/-- The legal commands: every `ENQ` kind is below `N_EVENT_KINDS` (30_encoding.md R93, R105). -/
def Instr.wellFormed : Instr → Bool
  | .enq kind => legalKind kind
  | .sinit => true
  | .wait => true
  | .gtick => true
  | .elapsed => true
  | .tgt => true
  | .tgte => true
  | .tcalc => true
  | .kinit => true
  | .ktick => true
  | .kpanic => true

end Sys2Proof
end

