-- ==== Sys2Proof/Decode.lean ====
section
/-! DEFINITION. The decoder, total on all 65536 command words, the encoder, and the opcode table (30_encoding.md). -/

namespace Sys2Proof

/-- Why a word is no command (30_encoding.md R96 to R98). -/
inductive DecodeError where
  /-- `OP` is 0x0 or at least 0xC. -/
  | reservedOp
  /-- `RSV` is not 0. -/
  | reservedBits
  /-- `KIND` is not 0 on a word whose `OP` is not `ENQ`. -/
  | kindOnNonEnq
  /-- An `ENQ` word whose `KIND` is 6 or more. -/
  | invalidKind
deriving DecidableEq, Repr

/-- The fatal code each illegal word raises (30_encoding.md R96). -/
def DecodeError.code : DecodeError → FatalCode
  | .reservedOp => Config.fcIllegalCmd
  | .reservedBits => Config.fcIllegalCmd
  | .kindOnNonEnq => Config.fcIllegalCmd
  | .invalidKind => Config.fcEventKind

/-- `OP = cmd[15:12]` (30_encoding.md R91). -/
def opField (w : Cmd) : BitVec 4 := w.extractLsb' 12 4

/-- `KIND = cmd[11:8]` (30_encoding.md R91). -/
def kindField (w : Cmd) : BitVec 4 := w.extractLsb' 8 4

/-- `RSV = cmd[7:0]` (30_encoding.md R91). -/
def rsvField (w : Cmd) : BitVec 8 := w.extractLsb' 0 8

/-- The value of `OP` that selects `ENQ` (30_encoding.md R92). -/
def opEnq : BitVec 4 := 0x2#4

/-- The operation `OP` selects (30_encoding.md R92); none for 0x0 and 0xC to 0xF. -/
def selectOp (op : BitVec 4) (kind : BitVec 4) : Option Instr :=
  match op.toNat with
  | 0x1 => some .sinit
  | 0x2 => some (.enq kind)
  | 0x3 => some .wait
  | 0x4 => some .gtick
  | 0x5 => some .elapsed
  | 0x6 => some .tgt
  | 0x7 => some .tgte
  | 0x8 => some .tcalc
  | 0x9 => some .kinit
  | 0xA => some .ktick
  | 0xB => some .kpanic
  | _ => none

/-- `Decode(cmd)`: the checks of 30_encoding.md R96 in the order it shows, the first that applies naming the error. -/
def decode (w : Cmd) : Except DecodeError Instr :=
  match selectOp (opField w) (kindField w) with
  | none => .error .reservedOp
  | some i =>
    if rsvField w ≠ 0#8 then .error .reservedBits
    else if opField w ≠ opEnq ∧ kindField w ≠ 0#4 then .error .kindOnNonEnq
    else if opField w = opEnq ∧ legalKind (kindField w) = false then .error .invalidKind
    else .ok i

/-- An `ENQ` word: one that matches the `ENQ` row, whatever its `KIND` (30_encoding.md R105, 60_exceptions.md R202).
DEDUCED, log entry 9. -/
def isEnqWord (w : Cmd) : Bool := opField w = opEnq && rsvField w = 0#8

/-- The command word of each command (30_encoding.md R101). -/
def encode : Instr → Cmd
  | .sinit => 0x1000#16
  | .enq kind => 0x2000#16 ||| (kind.setWidth 16 <<< 8)
  | .wait => 0x3000#16
  | .gtick => 0x4000#16
  | .elapsed => 0x5000#16
  | .tgt => 0x6000#16
  | .tgte => 0x7000#16
  | .tcalc => 0x8000#16
  | .kinit => 0x9000#16
  | .ktick => 0xA000#16
  | .kpanic => 0xB000#16

/-- One row of spec/opcode_table.json. -/
structure OpcodeRow where
  mnemonic : String
  pattern : Cmd
  mask : Cmd
deriving DecidableEq, Repr

/-- Does the word have the row's fixed bits (30_encoding.md R105)? -/
def OpcodeRow.fits (r : OpcodeRow) (w : Cmd) : Bool := w &&& r.mask = r.pattern

/-- spec/opcode_table.json's eleven rows (30_encoding.md R105). -/
def opcodeTable : List OpcodeRow :=
  [ ⟨"SINIT", 0x1000#16, 0xFFFF#16⟩,
    ⟨"ENQ", 0x2000#16, 0xF0FF#16⟩,
    ⟨"WAIT", 0x3000#16, 0xFFFF#16⟩,
    ⟨"GTICK", 0x4000#16, 0xFFFF#16⟩,
    ⟨"ELAPSED", 0x5000#16, 0xFFFF#16⟩,
    ⟨"TGT", 0x6000#16, 0xFFFF#16⟩,
    ⟨"TGTE", 0x7000#16, 0xFFFF#16⟩,
    ⟨"TCALC", 0x8000#16, 0xFFFF#16⟩,
    ⟨"KINIT", 0x9000#16, 0xFFFF#16⟩,
    ⟨"KTICK", 0xA000#16, 0xFFFF#16⟩,
    ⟨"KPANIC", 0xB000#16, 0xFFFF#16⟩ ]

/-- The instruction the decoder reads from a word of `nbits` bits numbered as the opcode table numbers them: bit 0 is the
least significant bit of the one command word. Bits above `nbits` are 0; no command is longer than 16 bits
(30_encoding.md R100). -/
def decodeTableWord (nbits w : Nat) : Option Instr :=
  match decode (BitVec.ofNat 16 (w % 2 ^ nbits)) with
  | .ok i => some i
  | .error _ => none

end Sys2Proof
end

