-- ==== Sys2Proof/Machine/State.lean ====
section
/-! DEFINITION. The state of the machine: the core's registers (10_state.md R30), the ports, the `Main` agent, and the
steps to come; why a step can stop; and the state right after reset. -/

namespace Sys2Proof.Machine

/-- `KSTATE`: one of Off, On, Dots, Dashes (10_state.md R38). -/
inductive KState where
  | off
  | on
  | dots
  | dashes
deriving DecidableEq, Repr

/-- The state of one core instance, the tuple of 10_state.md R30. -/
structure CoreState where
  /-- `TICK` (10_state.md R36). -/
  tick : Tick
  /-- `PENDING`, one bit for each event kind; bits 7:6 stay 0 (10_state.md R37). -/
  pending : BitVec 8
  /-- `OPA` (10_state.md R33). -/
  opa : Word
  /-- `OPB` (10_state.md R34). -/
  opb : Word
  /-- `RES` (10_state.md R35). -/
  res : Word
  /-- `KSTATE` (10_state.md R38). -/
  kstate : KState
  /-- `ESTART`, the tick at which the current keyed interval began (10_state.md R39). -/
  estart : Tick
  /-- `EDUR`, how long the current or most recent keyed interval should last (10_state.md R39). -/
  edur : Tick
  /-- `ELOCK`, the tick before which no new element may start (10_state.md R39). -/
  elock : Tick
  /-- `PANICKED` (10_state.md R40). -/
  panicked : Bool
  /-- `KEYED`, the logical keyed output (10_state.md R41). -/
  keyed : Bool
  /-- `FATAL` (10_state.md R42). -/
  fatal : Bool
  /-- `FCODE` (10_state.md R43). -/
  fcode : FatalCode
  /-- `DUR[0..4]`, the cached durations the keyer uses (10_state.md R44). -/
  dur : Bank Tick
  /-- `TRES[0..4]`, the results of `TCALC` (10_state.md R45). -/
  tres : Bank Tick
  /-- `CWPM`, the words per minute `DUR` was computed from, 0 when the cache is empty (10_state.md R46). -/
  cwpm : BitVec 8
  /-- `CSCALE[0..4]`, the scale patterns `DUR` was computed from (10_state.md R47). -/
  cscale : Bank Word
deriving DecidableEq, Repr

/-- The input ports (10_state.md R49) and the configuration ports (R50), written by `Env` only. -/
structure Ports where
  /-- `IN_SK`, straight key active. -/
  inSk : Bool
  /-- `IN_L`, left paddle active. -/
  inL : Bool
  /-- `IN_R`, right paddle active. -/
  inR : Bool
  /-- `CFG_WPM`. -/
  cfgWpm : BitVec 8
  /-- `CFG_SCALE[0..4]`, binary32 patterns. -/
  cfgScale : Bank Word
  /-- `CFG_INVERT`. -/
  cfgInvert : Bool
  /-- `CFG_ACTIVE_LOW`. -/
  cfgActiveLow : Bool
deriving DecidableEq, Repr

/-- The register names of 10_state.md R52. -/
inductive RegName where
  | cmd
  | opa
  | opb
  | res
  | status
  | estart
  | edur
  | elock
  | dur (e : Element)
  | tres (e : Element)
  | cwpm
  | cscale (e : Element)
deriving DecidableEq, Repr

/-- A bus access: `BusRead(n)` or `BusWrite(n, v)` (20_memory.md R72, R73). -/
inductive BusOp where
  | read (n : RegNum)
  | write (n : RegNum) (v : Word)
deriving DecidableEq, Repr

/-- What `Main` computes with; a comparison gives 1 or 0, a shift takes its distance from the second value. The choice of
operations is the model's (DESIGN CHOICE, log entry 4). -/
inductive MainArith where
  | add
  | sub
  | and
  | or
  | xor
  | shiftLeft
  | shiftRight
  | equal
  | below
deriving DecidableEq, Repr

/-- A value `Main` computes over the values it has read and its local values (60_exceptions.md R201). -/
inductive MainExpr where
  | const (v : Word)
  /-- A value read on the bus: 0 is the one read last, 1 the one before it, and so on. -/
  | read (age : Nat)
  /-- A local value. -/
  | var (x : Nat)
  | op (f : MainArith) (a b : MainExpr)
deriving DecidableEq, Repr

/-- One operation of `Main`'s program: a bus access, or its own control flow over the values it has read and its local
values (60_exceptions.md R201). The shape of the control flow is a DESIGN CHOICE, log entry 4. -/
inductive MainOp where
  /-- `BusRead(n)` (30_encoding.md R102). -/
  | read (n : RegNum)
  /-- `BusWrite(n, value)` (30_encoding.md R102, R103). -/
  | write (n : RegNum) (value : MainExpr)
  /-- A local value becomes the value of an expression. -/
  | assign (x : Nat) (value : MainExpr)
  /-- Go to position `target` unless the condition's value is 0. -/
  | branch (cond : MainExpr) (target : Nat)
deriving DecidableEq, Repr

/-- The `Main` agent's own state, outside the core (10_state.md R31, 60_exceptions.md R201). -/
structure MainAgent where
  /-- The program. -/
  prog : List MainOp
  /-- The position of the next operation in it. -/
  pos : Nat
  /-- The values read on the bus, newest first. -/
  reads : List Word
  /-- The local values 0, 1, 2, ... that have been written. -/
  locals : List Word
deriving DecidableEq, Repr

/-- The interrupt sources other than the timer, `Isr(1)` to `Isr(5)` (60_exceptions.md R210). -/
inductive IsrSource where
  | input
  | port0Rx
  | port0Tx
  | port1Rx
  | port1Tx
deriving DecidableEq, Repr

/-- The agents in interrupt context (60_exceptions.md R214). -/
inductive Handler where
  | timer
  | isr (k : IsrSource)
deriving DecidableEq, Repr

/-- The agents of 60_exceptions.md R200. -/
inductive Agent where
  | main
  | interrupt (h : Handler)
  | env
deriving DecidableEq, Repr

/-- One step to come: whose it is, and with what. The list of them in State is the interleaving (log entry 1). -/
inductive Event where
  /-- `Main` performs the next operation of its program. -/
  | main
  /-- The timer step (40_scheduler.md R110). -/
  | timer
  /-- A bus access from interrupt context; only an `Isr` write of an `ENQ` word is allowed (60_exceptions.md R202). -/
  | access (h : Handler) (op : BusOp)
  /-- `Env` presents these ports from now on (60_exceptions.md R203). -/
  | env (p : Ports)
  /-- Power-on reset (70_reset_and_hazards.md R230). -/
  | powerOn
deriving DecidableEq, Repr

/-- The machine: the core, its ports, the `Main` agent, and the model's own fields. -/
structure State where
  /-- The core's registers. -/
  core : CoreState
  /-- The ports as `Env` presents them now. -/
  ports : Ports
  /-- The `Main` agent. -/
  main : MainAgent
  /-- The steps to come, in order (log entry 1). -/
  events : List Event
  /-- The agent whose step is being taken: it carries its context (60_exceptions.md R214, log entry 5). -/
  issuer : Agent
  /-- How many steps have been taken: the draw for `INDICATOR` while `FATAL = 1` (log entry 7). -/
  draws : Nat
deriving DecidableEq, Repr

/-- Why the machine stops with a fault. -/
inductive Fault where
  /-- The core is in the fatal state and the step is not `Env`'s and not power-on reset: `Main`, `Timer` and `Isr` have no
  step there, and the state is never a good end (60_exceptions.md R206). Raised by every meaning and by the step
  function. Safe: the machine stops where the spec gives no step. -/
  | halted (code : FatalCode)
deriving DecidableEq, Repr

/-- Why a step has no meaning. -/
inductive Refusal where
  /-- The instruction has no meaning in this model. Raised by no arm. Safe. -/
  | notModelled (mnemonic : String)
  /-- `Main` reads `CMD` (20_memory.md R74). Raised by the bus read. Safe: the spec gives the access no step. -/
  | readOfCmd
  /-- `Main` reads or writes a number from 0x18 to 0xFF (20_memory.md R74). Raised by the bus accesses. Safe. -/
  | unassignedRegister (n : RegNum)
  /-- `Main` writes a read-only register (20_memory.md R74). Raised by the bus write. Safe. -/
  | readOnlyRegister (n : RegNum)
  /-- A bus access from interrupt context other than an `Isr` write of an `ENQ` word to `CMD` (20_memory.md R74). Raised by
  the bus accesses of handlers. Safe. -/
  | interruptAccess (a : Agent)
  /-- A command issued from a context that may not issue it (60_exceptions.md R214, R215). Raised by every meaning. Safe. -/
  | contextForbids (a : Agent)
deriving DecidableEq, Repr

/-- What a step answers. -/
abbrev Result := Host.Outcome State Fault Refusal

/-- The core's registers after power-on reset (10_state.md R59). -/
def CoreState.reset : CoreState where
  tick := 0#32
  pending := 0#8
  opa := 0#32
  opb := 0#32
  res := 0#32
  kstate := .off
  estart := 0#32
  edur := 0#32
  elock := 0#32
  panicked := false
  keyed := false
  fatal := false
  fcode := 0#8
  dur := Bank.const 0#32
  tres := Bank.const 0#32
  cwpm := 0#8
  cscale := Bank.const 0#32

/-- The ports at reset. The spec resets none (70_reset_and_hazards.md R230); these are the values its programs start from
(95_test_vectors.md section 3): 20 words per minute, every scale 1.0, nothing active. DESIGN CHOICE, log entry 6. -/
def Ports.reset : Ports where
  inSk := false
  inL := false
  inR := false
  cfgWpm := 20#8
  cfgScale := Bank.const 0x3F800000#32
  cfgInvert := false
  cfgActiveLow := false

/-- The machine right after reset: the core as 10_state.md R59 says, no program loaded, no step scheduled
(log entries 1 to 7). -/
def State.reset : State where
  core := CoreState.reset
  ports := Ports.reset
  main := ⟨[], 0, [], []⟩
  events := []
  issuer := .main
  draws := 0

/-- The same state with other core registers. -/
def State.withCore (s : State) (c : CoreState) : State := { s with core := c }

end Sys2Proof.Machine
end

