-- ==== Sys2Proof/Machine/Ops.lean ====
section
/-! DEFINITION. The shared operations: tick arithmetic, the event set, the fatal entry and power-on reset, who may issue a
command, and the register map. -/

namespace Sys2Proof.Machine

/-! ### Tick arithmetic (40_scheduler.md R120 to R123) -/

/-- `(now - then) mod 2^W` (40_scheduler.md R120). -/
def elapsedTicks (now start : Tick) : Tick := now - start

/-- Strict "a later than b": the forward distance from b to a is in 1 .. HALF-1 (40_scheduler.md R122). -/
def isTickGt (a b : Tick) : Bool := a - b ≠ 0#32 && (a - b).toNat < Config.half.toNat

/-- Non-strict "a not earlier than b": the forward distance is below HALF (40_scheduler.md R123). -/
def isTickGte (a b : Tick) : Bool := (a - b).toNat < Config.half.toNat

/-- The result of a boolean operation: 1 for true, 0 for false (10_state.md R35). -/
def boolWord (b : Bool) : Word := if b then 1#32 else 0#32

/-! ### The pending-event set (10_state.md R37) -/

/-- `PENDING[k] <- 1`: an OR, the other bits kept (40_scheduler.md R113). -/
def setEvent (pending : BitVec 8) (k : Nat) : BitVec 8 := pending ||| (1#8 <<< k)

/-- The bit of `EV_TICK` (10_state.md R37). -/
def evTick : Nat := 0

/-! ### The fatal entry and power-on reset -/

/-- `raise Fatal(code)` on the registers: three writes and nothing else (60_exceptions.md R204). -/
def CoreState.raiseFatal (code : FatalCode) (c : CoreState) : CoreState :=
  { c with fatal := true, fcode := code, keyed := false }

/-- `raise Fatal(code)`: the step of the raising command ends in the fatal state, which is a next state; the steps after it
find the machine halted (60_exceptions.md R204, R206, log entry 8). -/
def raiseFatal (code : FatalCode) (s : State) : Result :=
  .next (s.withCore (s.core.raiseFatal code))

/-- Power-on reset, the only return from the fatal state: every register of the core at its reset value, the ports as `Env`
presents them, `Main` at the first operation of its program (70_reset_and_hazards.md R230, R231, log entry 13). -/
def powerOnReset (s : State) : State :=
  { s with core := CoreState.reset, main := { s.main with pos := 0, reads := [], locals := [] }, issuer := .main }

/-! ### Who may step -/

/-- `Main`, `Timer` and `Isr` have a step only while `FATAL = 0` (60_exceptions.md R206). -/
def unlessHalted (s : State) (r : Result) : Result :=
  if s.core.fatal then .fault (.halted s.core.fcode) else r

/-- May this agent issue `ENQ`? `Main` and every `Isr(k)` (40_scheduler.md R114, 60_exceptions.md R214). -/
def Agent.mayEnqueue : Agent → Bool
  | .main => true
  | .interrupt .timer => false
  | .interrupt (.isr _) => true
  | .env => false

/-- A command of main context: any other agent is refused (60_exceptions.md R214, R215). -/
def asMain (s : State) (r : Result) : Result :=
  unlessHalted s (if s.issuer = .main then r else .refused (.contextForbids s.issuer))

/-- A command of main and interrupt context (60_exceptions.md R214, the row of `ENQ`). -/
def asEnqueuer (s : State) (r : Result) : Result :=
  unlessHalted s (if s.issuer.mayEnqueue then r else .refused (.contextForbids s.issuer))

/-! ### The register map (10_state.md R52) -/

/-- The register a number names; none for 0x18 to 0xFF. -/
def RegName.ofNumber (n : RegNum) : Option RegName :=
  match n.toNat with
  | 0x00 => some .cmd
  | 0x01 => some .opa
  | 0x02 => some .opb
  | 0x03 => some .res
  | 0x04 => some .status
  | 0x05 => some .estart
  | 0x06 => some .edur
  | 0x07 => some .elock
  | 0x08 => some (.dur .dot)
  | 0x09 => some (.dur .dash)
  | 0x0A => some (.dur .elementSpace)
  | 0x0B => some (.dur .letterSpace)
  | 0x0C => some (.dur .wordSpace)
  | 0x0D => some (.tres .dot)
  | 0x0E => some (.tres .dash)
  | 0x0F => some (.tres .elementSpace)
  | 0x10 => some (.tres .letterSpace)
  | 0x11 => some (.tres .wordSpace)
  | 0x12 => some .cwpm
  | 0x13 => some (.cscale .dot)
  | 0x14 => some (.cscale .dash)
  | 0x15 => some (.cscale .elementSpace)
  | 0x16 => some (.cscale .letterSpace)
  | 0x17 => some (.cscale .wordSpace)
  | _ => none

/-- The number of a register. -/
def RegName.number : RegName → RegNum
  | .cmd => 0x00#8
  | .opa => 0x01#8
  | .opb => 0x02#8
  | .res => 0x03#8
  | .status => 0x04#8
  | .estart => 0x05#8
  | .edur => 0x06#8
  | .elock => 0x07#8
  | .dur e => BitVec.ofNat 8 (0x08 + e.index)
  | .tres e => BitVec.ofNat 8 (0x0D + e.index)
  | .cwpm => 0x12#8
  | .cscale e => BitVec.ofNat 8 (0x13 + e.index)

end Sys2Proof.Machine
end

