-- ==== Sys2Proof/Machine/Operands.lean ====
section
/-! DEFINITION. Where a command's operands come from (30_encoding.md R95): the operand registers, the configuration ports,
the input ports. -/

namespace Sys2Proof.Machine

/-- `now = OPA[TICK_W-1:0]`, read by `ELAPSED` and `KTICK` (10_state.md R33). -/
def CoreState.now (c : CoreState) : Tick := c.opa

/-- `then = OPB[TICK_W-1:0]`, read by `ELAPSED` (10_state.md R34). -/
def CoreState.thenTick (c : CoreState) : Tick := c.opb

/-- `a = OPA[TICK_W-1:0]`, read by `TGT` and `TGTE` (10_state.md R33). -/
def CoreState.tickA (c : CoreState) : Tick := c.opa

/-- `b = OPB[TICK_W-1:0]`, read by `TGT` and `TGTE` (10_state.md R34). -/
def CoreState.tickB (c : CoreState) : Tick := c.opb

/-- The index `k = zext(cmd[11:8])` of `ENQ` (30_encoding.md R93). -/
def eventIndex (kind : BitVec 4) : Nat := kind.toNat

/-- The number `k` of `Isr(k)` and of the event kind it is meant to enqueue (60_exceptions.md R202, R210). -/
def IsrSource.number : IsrSource → Nat
  | .input => 1
  | .port0Rx => 2
  | .port0Tx => 3
  | .port1Rx => 4
  | .port1Tx => 5

/-- The word `Isr(k)` is meant to issue, `0x2k00` (60_exceptions.md R202). -/
def IsrSource.word (k : IsrSource) : Cmd := encode (.enq (BitVec.ofNat 4 k.number))

/-- The dot paddle: left, or right if inverted (42_keyer.md R165). -/
def Ports.dotPaddle (p : Ports) : Bool := if p.cfgInvert then p.inR else p.inL

/-- The dash paddle: the other one (42_keyer.md R165). -/
def Ports.dashPaddle (p : Ports) : Bool := if p.cfgInvert then p.inL else p.inR

/-- Both paddles, whatever `CFG_INVERT` says (42_keyer.md R164, R165). -/
def Ports.squeeze (p : Ports) : Bool := p.inL && p.inR

end Sys2Proof.Machine
end

