-- ==== Sys2Proof/Machine/Flags.lean ====
section
/-! DEFINITION. The flags `KEYED`, `PANICKED`, `FATAL` (00_scope.md R27): their writes, the `STATUS` view, the register values
a bus read returns, and the output ports. -/

namespace Sys2Proof.Machine

/-- `KEYED <- 1`. -/
def CoreState.energize (c : CoreState) : CoreState := { c with keyed := true }

/-- `KEYED <- 0`. -/
def CoreState.deenergize (c : CoreState) : CoreState := { c with keyed := false }

/-- `KPANIC`'s writes: `KEYED <- 0`, `PANICKED <- 1` (42_keyer.md R180). -/
def CoreState.panic (c : CoreState) : CoreState := { c with keyed := false, panicked := true }

/-- `ClearPanic`: the flag cleared and the timers zeroed (42_keyer.md R168). -/
def CoreState.clearPanic (c : CoreState) : CoreState :=
  { c with panicked := false, estart := 0#32, edur := 0#32, elock := 0#32 }

/-- The encoding of `KSTATE`: Off 0, On 1, Dots 2, Dashes 3 (10_state.md R38). -/
def KState.code : KState → BitVec 2
  | .off => 0#2
  | .on => 1#2
  | .dots => 2#2
  | .dashes => 3#2

/-- A flag as one bit. -/
def bit (b : Bool) : BitVec 1 := BitVec.ofBool b

/-- `STATUS = zext_32({FCODE, 3'b000, FATAL, PANICKED, KEYED, KSTATE})` (10_state.md R48). -/
def CoreState.status (c : CoreState) : Word :=
  (c.fcode ++ 0#3 ++ bit c.fatal ++ bit c.panicked ++ bit c.keyed ++ c.kstate.code).setWidth 32

/-- The value a bus read of a register returns, zero-extended; none for the write-only `CMD` (20_memory.md R72). -/
def CoreState.regValue (c : CoreState) : RegName → Option Word
  | .cmd => none
  | .opa => some c.opa
  | .opb => some c.opb
  | .res => some c.res
  | .status => some c.status
  | .estart => some c.estart
  | .edur => some c.edur
  | .elock => some c.elock
  | .dur e => some (c.dur.get e)
  | .tres e => some (c.tres.get e)
  | .cwpm => some (c.cwpm.setWidth 32)
  | .cscale e => some (c.cscale.get e)

/-! ### The output ports (10_state.md R51) -/

/-- `KEY_LINE = KEYED xor CFG_ACTIVE_LOW`. -/
def State.keyLine (s : State) : Bool := s.core.keyed ^^ s.ports.cfgActiveLow

/-- `INDICATOR = KEYED` while `FATAL = 0`; any value while `FATAL = 1` (93_implementation_defined.md U7, log entry 7). -/
def State.indicator (s : State) : Bool :=
  if s.core.fatal then Config.failIndicator s.draws else s.core.keyed

/-- `SIDETONE = KEYED`. -/
def State.sidetone (s : State) : Bool := s.core.keyed

/-- `FAIL_SIGNAL = FATAL`. -/
def State.failSignal (s : State) : Bool := s.core.fatal

end Sys2Proof.Machine
end

