-- ==== Sys2Proof/Machine/Timing.lean ====
section
/-! DEFINITION. The WPM-to-duration calculator, `TCALC`, and the duration cache (41_timing.md). -/

namespace Sys2Proof.Machine

/-- `value32(s)` as an exact multiple of 2^-149, which every finite binary32 value is; none when the pattern is not finite
(41_timing.md R155, log entry 17). -/
def value32 (s : Word) : Option Int :=
  let e := (s.extractLsb' 23 8).toNat
  let f := (s.extractLsb' 0 23).toNat
  let magnitude : Int := if e = 0 then f else (2 ^ 23 + f) * 2 ^ (e - 1)
  if e = 255 then none else some (if s.getLsbD 31 then -magnitude else magnitude)

/-- The value of a finite pattern in units of 2^-149; 0 for one that is not finite, which no valid configuration holds. -/
def scaledValue (s : Word) : Int := (value32 s).getD 0

/-- A valid scale is finite and lies between `SCALE_MIN` and `SCALE_MAX` by value (41_timing.md R141). -/
def validScale (s : Word) : Bool :=
  match value32 s with
  | none => false
  | some v => scaledValue Config.scaleMin ≤ v && v ≤ scaledValue Config.scaleMax

/-- A valid words-per-minute value (41_timing.md R141). -/
def validWpm (wpm : BitVec 8) : Bool :=
  Config.wpmMin.toNat ≤ wpm.toNat && wpm.toNat ≤ Config.wpmMax.toNat

/-- `valid(wpm, scale[0..4])` (41_timing.md R141). -/
def validConfig (wpm : BitVec 8) (scale : Bank Word) : Bool := validWpm wpm && scale.all validScale

/-- `round(num / den) = floor(num / den + 1/2)`, ties upward (00_scope.md R26). -/
def roundDiv (num : Int) (den : Nat) : Int := (2 * num + den) / (2 * den)

/-- `round(k * unit * value32(scale))` with `unit = 60000 / (wpm * 50)`, in exact arithmetic (41_timing.md R143). -/
def durationTicks (k : Nat) (wpm : BitVec 8) (scale : Word) : Int :=
  roundDiv (k * 60000 * scaledValue scale) (wpm.toNat * 50 * 2 ^ 149)

/-- `Calc(wpm, scale)[i]` (41_timing.md R143). -/
def calcElement (wpm : BitVec 8) (scale : Bank Word) (e : Element) : Tick :=
  BitVec.ofInt 32 (durationTicks (Config.unitMultiplier e) wpm (scale.get e))

/-- `Calc(wpm, scale)` (41_timing.md R143). -/
def calcDurations (wpm : BitVec 8) (scale : Bank Word) : Bank Tick := Bank.ofFn (calcElement wpm scale)

/-- `TCALC`'s writes for a valid configuration (41_timing.md R144). -/
def CoreState.setTres (d : Bank Tick) (c : CoreState) : CoreState := { c with tres := d }

/-- The writes of a cache refresh (41_timing.md R149). -/
def CoreState.fillCache (wpm : BitVec 8) (scale : Bank Word) (c : CoreState) : CoreState :=
  { c with dur := calcDurations wpm scale, cwpm := wpm, cscale := scale }

/-- Must the cache be refreshed? It is empty, or a port differs from its key, compared as bit patterns
(41_timing.md R149). -/
def CoreState.cacheStale (c : CoreState) (p : Ports) : Bool :=
  c.cwpm = 0#8 || p.cfgWpm ≠ c.cwpm || p.cfgScale ≠ c.cscale

/-- `RefreshDurations` (41_timing.md R149): the registers after it, or none where it raises `Fatal(0x03)`. -/
def refreshDurations (p : Ports) (c : CoreState) : Option CoreState :=
  if c.cacheStale p then
    if validConfig p.cfgWpm p.cfgScale then some (c.fillCache p.cfgWpm p.cfgScale) else none
  else some c

/-- `TCALC` (41_timing.md R144, R145). -/
def execTcalc (s : State) : Result :=
  asMain s
    (if validConfig s.ports.cfgWpm s.ports.cfgScale then
       .next (s.withCore (s.core.setTres (calcDurations s.ports.cfgWpm s.ports.cfgScale)))
     else raiseFatal Config.fcTimingRange s)

end Sys2Proof.Machine
end

