-- ==== Sys2Proof/Machine/Keyer.lean ====
section
/-! DEFINITION. The keyer state machine (42_keyer.md): `KINIT`, `KTICK`, `KPANIC`. -/

namespace Sys2Proof.Machine

/-- `KINIT`'s writes (42_keyer.md R161). -/
def CoreState.keyerInit (c : CoreState) : CoreState :=
  { c with
    kstate := .off, estart := 0#32, edur := 0#32, elock := 0#32, panicked := false, keyed := false,
    dur := Bank.const 0#32, cwpm := 0#8, cscale := Bank.const 0#32 }

/-- `NextState`, the first matching line deciding (42_keyer.md R166), on the sampled inputs (R164, R165). -/
def nextState (cur : KState) (p : Ports) : KState :=
  if p.inSk then .on
  else if p.squeeze then cur
  else if p.dotPaddle then .dots
  else if p.dashPaddle then .dashes
  else .off

/-- `DurationElapsed(now)` (42_keyer.md R171). -/
def CoreState.durationElapsed (c : CoreState) (now : Tick) : Bool :=
  c.edur.toNat ≤ (elapsedTicks now c.estart).toNat

/-- `LockoutExpired(now)` (42_keyer.md R172). -/
def CoreState.lockoutExpired (c : CoreState) (now : Tick) : Bool :=
  (elapsedTicks c.elock c.estart).toNat ≤ (elapsedTicks now c.estart).toNat

/-- The writes that begin an element of duration `d` (42_keyer.md R175). -/
def CoreState.beginElement (now d : Tick) (c : CoreState) : CoreState :=
  { c with keyed := true, estart := now, edur := d, elock := now + d + c.dur.elementSpace }

/-- `KSTATE <- next` (42_keyer.md R169). -/
def CoreState.setKstate (k : KState) (c : CoreState) : CoreState := { c with kstate := k }

/-- `OffAction(now)` (42_keyer.md R173). -/
def offAction (now : Tick) (c : CoreState) : CoreState :=
  if c.durationElapsed now then c.deenergize else c

/-- `OnAction` (42_keyer.md R174). -/
def onAction (c : CoreState) : CoreState := if c.panicked then c else c.energize

/-- `ElementAction(now, changed, d)` (42_keyer.md R175, R176). -/
def elementAction (now : Tick) (changed : Bool) (d : Tick) (c : CoreState) : CoreState :=
  if !c.panicked && c.lockoutExpired now && (changed || !c.keyed) then c.beginElement now d
  else if c.keyed && c.durationElapsed now then c.deenergize
  else c

/-- The action of the next state (42_keyer.md R162, R170). -/
def stateAction (next : KState) (now : Tick) (changed : Bool) (c : CoreState) : CoreState :=
  match next with
  | .off => offAction now c
  | .on => onAction c
  | .dots => elementAction now changed c.dur.dot c
  | .dashes => elementAction now changed c.dur.dash c

/-- `KTICK` after the cache refresh (42_keyer.md R162). -/
def keyerTick (now : Tick) (p : Ports) (c : CoreState) : CoreState :=
  let next := nextState c.kstate p
  let changed : Bool := next ≠ c.kstate
  let cleared := if changed && c.panicked then c.clearPanic else c
  stateAction next now changed (cleared.setKstate next)

/-- `KINIT` (42_keyer.md R161). -/
def execKinit (s : State) : Result := asMain s (.next (s.withCore s.core.keyerInit))

/-- `KTICK` (42_keyer.md R162, R163). -/
def execKtick (s : State) : Result :=
  asMain s
    (match refreshDurations s.ports s.core with
     | none => raiseFatal Config.fcTimingRange s
     | some c => .next (s.withCore (keyerTick c.now s.ports c)))

/-- `KPANIC` (42_keyer.md R180). -/
def execKpanic (s : State) : Result := asMain s (.next (s.withCore s.core.panic))

end Sys2Proof.Machine
end

