-- ==== Sys2Proof/Machine/Scheduler.lean ====
section
/-! DEFINITION. The scheduler's commands (40_scheduler.md): `SINIT`, `ENQ`, `WAIT`, `GTICK`, `ELAPSED`, `TGT`, `TGTE`, and the
timer step's writes. -/

namespace Sys2Proof.Machine

/-- The timer step's two writes (40_scheduler.md R110). -/
def CoreState.timerStep (c : CoreState) : CoreState :=
  { c with tick := c.tick + 1#32, pending := setEvent c.pending evTick }

/-- `SINIT`'s writes (40_scheduler.md R112). -/
def CoreState.schedulerInit (c : CoreState) : CoreState := { c with tick := 0#32, pending := 0#8 }

/-- `ENQ`'s write (40_scheduler.md R113). -/
def CoreState.enqueue (k : Nat) (c : CoreState) : CoreState := { c with pending := setEvent c.pending k }

/-- `WAIT`'s writes: the snapshot and the clear (40_scheduler.md R116). -/
def CoreState.drain (c : CoreState) : CoreState := { c with res := c.pending.setWidth 32, pending := 0#8 }

/-- `RES <- v`, the write of every command that gives a result (10_state.md R35). -/
def CoreState.setRes (v : Word) (c : CoreState) : CoreState := { c with res := v }

/-- `SINIT` (40_scheduler.md R112). -/
def execSinit (s : State) : Result := asMain s (.next (s.withCore s.core.schedulerInit))

/-- `ENQ k` (40_scheduler.md R113). A kind of 6 or more raises `Fatal(0x01)` (30_encoding.md R98); the decoder gives none
(log entry 11). -/
def execEnq (kind : BitVec 4) (s : State) : Result :=
  asEnqueuer s
    (if legalKind kind then .next (s.withCore (s.core.enqueue (eventIndex kind)))
     else raiseFatal Config.fcEventKind s)

/-- `WAIT` (40_scheduler.md R116). With `PENDING = 0` it holds: nothing changes (R115, log entry 12). -/
def execWait (s : State) : Result :=
  asMain s (if s.core.pending = 0#8 then .next s else .next (s.withCore s.core.drain))

/-- `GTICK` (40_scheduler.md R119). -/
def execGtick (s : State) : Result := asMain s (.next (s.withCore (s.core.setRes s.core.tick)))

/-- `ELAPSED` (40_scheduler.md R120). -/
def execElapsed (s : State) : Result :=
  asMain s (.next (s.withCore (s.core.setRes (elapsedTicks s.core.now s.core.thenTick))))

/-- `TGT` (40_scheduler.md R122). -/
def execTgt (s : State) : Result :=
  asMain s (.next (s.withCore (s.core.setRes (boolWord (isTickGt s.core.tickA s.core.tickB)))))

/-- `TGTE` (40_scheduler.md R123). -/
def execTgte (s : State) : Result :=
  asMain s (.next (s.withCore (s.core.setRes (boolWord (isTickGte s.core.tickA s.core.tickB)))))

end Sys2Proof.Machine
end

