-- ==== Sys2Proof/Machine/Dispatch.lean ====
section
/-! DEFINITION. The meaning of every command, one arm for each constructor of Instr. -/

namespace Sys2Proof.Machine

def exec (i : Instr) (s : State) : Host.Outcome State Fault Refusal :=
  match i with
  | .sinit => Sys2Proof.Machine.execSinit s
  | .enq kind => Sys2Proof.Machine.execEnq kind s
  | .wait => Sys2Proof.Machine.execWait s
  | .gtick => Sys2Proof.Machine.execGtick s
  | .elapsed => Sys2Proof.Machine.execElapsed s
  | .tgt => Sys2Proof.Machine.execTgt s
  | .tgte => Sys2Proof.Machine.execTgte s
  | .tcalc => Sys2Proof.Machine.execTcalc s
  | .kinit => Sys2Proof.Machine.execKinit s
  | .ktick => Sys2Proof.Machine.execKtick s
  | .kpanic => Sys2Proof.Machine.execKpanic s

end Sys2Proof.Machine
end

