-- ==== Sys2Proof/Machine/Bus.lean ====
section
/-! DEFINITION. The bus: issuing a command, reads and writes by `Main`, and accesses from interrupt context
(20_memory.md R72 to R74, 30_encoding.md R90). -/

namespace Sys2Proof.Machine

/-- Issuing a word that is no command raises its fatal code (30_encoding.md R96). From interrupt context a word that is no
`ENQ` word is a refused access, not a fatal condition (20_memory.md R74, log entry 9). -/
def illegalWord (e : DecodeError) (w : Cmd) (s : State) : Result :=
  unlessHalted s
    (if s.issuer = .main || (s.issuer.mayEnqueue && isEnqWord w) then raiseFatal e.code s
     else .refused (.interruptAccess s.issuer))

/-- `Issue(cmd)` by the agent whose step it is (30_encoding.md R90). -/
def issue (w : Cmd) (s : State) : Result :=
  match decode w with
  | .ok i => exec i s
  | .error e => illegalWord e w s

/-- `OPA <- v` (20_memory.md R73). -/
def CoreState.setOpa (v : Word) (c : CoreState) : CoreState := { c with opa := v }

/-- `OPB <- v` (20_memory.md R73). -/
def CoreState.setOpb (v : Word) (c : CoreState) : CoreState := { c with opb := v }

/-- `Main` receives a value it has read (60_exceptions.md R201). -/
def State.receive (v : Word) (s : State) : State := { s with main := { s.main with reads := v :: s.main.reads } }

/-- `BusRead(n)` by `Main`: the value goes to `Main`; the core's state does not change (20_memory.md R72, R74). -/
def mainRead (n : RegNum) (s : State) : Result :=
  match RegName.ofNumber n with
  | none => .refused (.unassignedRegister n)
  | some r =>
    match s.core.regValue r with
    | none => .refused .readOfCmd
    | some v => .next (s.receive v)

/-- `BusWrite(n, v)` by `Main` (20_memory.md R73, R74). -/
def mainWrite (n : RegNum) (v : Word) (s : State) : Result :=
  match RegName.ofNumber n with
  | none => .refused (.unassignedRegister n)
  | some .cmd => issue (v.setWidth 16) s
  | some .opa => .next (s.withCore (s.core.setOpa v))
  | some .opb => .next (s.withCore (s.core.setOpb v))
  | some .res => .refused (.readOnlyRegister n)
  | some .status => .refused (.readOnlyRegister n)
  | some .estart => .refused (.readOnlyRegister n)
  | some .edur => .refused (.readOnlyRegister n)
  | some .elock => .refused (.readOnlyRegister n)
  | some (.dur _) => .refused (.readOnlyRegister n)
  | some (.tres _) => .refused (.readOnlyRegister n)
  | some .cwpm => .refused (.readOnlyRegister n)
  | some (.cscale _) => .refused (.readOnlyRegister n)

/-- A bus access by `Main`. -/
def mainAccess (op : BusOp) (s : State) : Result :=
  match op with
  | .read n => mainRead n s
  | .write n v => mainWrite n v s

/-- A bus access from interrupt context: only a write to `CMD` by an `Isr(k)` reaches the core (20_memory.md R73, R74,
60_exceptions.md R202). -/
def handlerAccess (h : Handler) (op : BusOp) (s : State) : Result :=
  unlessHalted s
    (match h, op with
     | .isr _, .write n v =>
       if n = RegName.cmd.number then issue (v.setWidth 16) s else .refused (.interruptAccess (.interrupt h))
     | .isr _, .read _ => .refused (.interruptAccess (.interrupt h))
     | .timer, .read _ => .refused (.interruptAccess (.interrupt h))
     | .timer, .write _ _ => .refused (.interruptAccess (.interrupt h)))

end Sys2Proof.Machine
end

