-- ==== Sys2Proof/Machine/Agents.lean ====
section
/-! DEFINITION. The agents (60_exceptions.md section 1): how `Main` takes its next operation and holds at `WAIT`, and what
each scheduled step does. -/

namespace Sys2Proof.Machine

/-- The next operation of `Main`'s program; none when the program has ended (70_reset_and_hazards.md R249). -/
def MainAgent.current (m : MainAgent) : Option MainOp := m.prog[m.pos]?

/-- A value that has been read, by its age; 0 where nothing was read yet (log entry 4). -/
def MainAgent.readValue (m : MainAgent) (age : Nat) : Word := m.reads[age]?.getD 0#32

/-- A local value; 0 where nothing was written yet (log entry 4). -/
def MainAgent.varValue (m : MainAgent) (x : Nat) : Word := m.locals[x]?.getD 0#32

/-- The list with `v` at position `x`, filled up with 0 where it is shorter. -/
def setLocal : Nat → Word → List Word → List Word
  | 0, v, [] => [v]
  | 0, v, _ :: ls => v :: ls
  | x + 1, v, [] => 0#32 :: setLocal x v []
  | x + 1, v, l :: ls => l :: setLocal x v ls

/-- The local value `x` becomes `v`. -/
def MainAgent.setVar (x : Nat) (v : Word) (m : MainAgent) : MainAgent := { m with locals := setLocal x v m.locals }

/-- `Main`'s arithmetic on two words. -/
def MainArith.eval (f : MainArith) (a b : Word) : Word :=
  match f with
  | .add => a + b
  | .sub => a - b
  | .and => a &&& b
  | .or => a ||| b
  | .xor => a ^^^ b
  | .shiftLeft => a <<< b.toNat
  | .shiftRight => a >>> b.toNat
  | .equal => boolWord (a = b)
  | .below => boolWord (a.toNat < b.toNat)

/-- The value of an expression in `Main`'s state. -/
def MainExpr.eval (m : MainAgent) : MainExpr → Word
  | .const v => v
  | .read age => m.readValue age
  | .var x => m.varValue x
  | .op f a b => f.eval (a.eval m) (b.eval m)

/-- The bus access an operation makes; none for control flow. -/
def MainOp.access (m : MainAgent) : MainOp → Option BusOp
  | .read n => some (.read n)
  | .write n value => some (.write n (value.eval m))
  | .assign _ _ => none
  | .branch _ _ => none

/-- `Main` once it has gone past an operation: in program order, but for a branch that is taken (60_exceptions.md R201). -/
def MainOp.pass (m : MainAgent) : MainOp → MainAgent
  | .read _ => { m with pos := m.pos + 1 }
  | .write _ _ => { m with pos := m.pos + 1 }
  | .assign x value => { m.setVar x (value.eval m) with pos := m.pos + 1 }
  | .branch cond target => { m with pos := if cond.eval m = 0#32 then m.pos + 1 else target }

/-- Is this the word of `WAIT`? -/
def isWaitWord (w : Cmd) : Bool :=
  match decode w with
  | .ok i => i = .wait
  | .error _ => false

/-- Is the access an issue of `WAIT` that holds, because `PENDING = 0` (40_scheduler.md R115)? -/
def BusOp.holds (c : CoreState) : BusOp → Bool
  | .read _ => false
  | .write n v => n = RegName.cmd.number && isWaitWord (v.setWidth 16) && c.pending = 0#8

/-- `Main` goes on to another position of its program. -/
def State.goto (pos : Nat) (s : State) : State := { s with main := { s.main with pos := pos } }

/-- The same state, `Main` past this operation. -/
def State.pass (op : MainOp) (s : State) : State := { s with main := op.pass s.main }

/-- `Main`'s step: its next operation, in program order (60_exceptions.md R201). While a `WAIT` holds, `Main` stays at it
(40_scheduler.md R115, log entry 12); when its program has ended, it has no step and nothing changes (log entry 2). -/
def mainTurn (s : State) : Result :=
  unlessHalted s
    (match s.main.current with
     | none => .next s
     | some op =>
       match op.access s.main with
       | none => .next (s.pass op)
       | some a => mainAccess a (if a.holds s.core then s else s.pass op))

/-- The timer step (40_scheduler.md R110). -/
def timerTurn (s : State) : Result := unlessHalted s (.next (s.withCore s.core.timerStep))

/-- `Env` presents other ports; enabled in the fatal state too (60_exceptions.md R203, R206). -/
def envTurn (p : Ports) (s : State) : Result := .next { s with ports := p }

/-- The same state, the step being taken by this agent. -/
def State.asAgent (a : Agent) (s : State) : State := { s with issuer := a }

/-- One scheduled step (60_exceptions.md R200). -/
def runEvent (e : Event) (s : State) : Result :=
  match e with
  | .main => mainTurn (s.asAgent .main)
  | .timer => timerTurn (s.asAgent (.interrupt .timer))
  | .access h op => handlerAccess h op (s.asAgent (.interrupt h))
  | .env p => envTurn p (s.asAgent .env)
  | .powerOn => .next (powerOnReset s)

/-- The machine before a step: one more instant has passed and the scheduled step is taken from the list. -/
def State.began (rest : List Event) (s : State) : State := { s with events := rest, draws := s.draws + 1 }

/-- The next scheduled step. With none scheduled no agent steps, and nothing changes (log entry 2). -/
def runNext (s : State) : Result :=
  match s.events with
  | [] => unlessHalted s (.next (s.began []))
  | e :: rest => runEvent e (s.began rest)

/-- Is `Main` holding at `WAIT`: the low-power idle of 60_exceptions.md R217? -/
def State.idle (s : State) : Bool :=
  match s.main.current with
  | none => false
  | some op =>
    match op.access s.main with
    | none => false
    | some a => !s.core.fatal && a.holds s.core

/-- Has `Main` performed the last operation of its program (70_reset_and_hazards.md R249)? -/
def State.mainEnded (s : State) : Bool := s.main.current.isNone

/-- `Main`'s program is the one operation that writes the word to `CMD`, and `Main` steps next (log entry 3). -/
def loadCommand (w : Cmd) (s : State) : State :=
  { s with
    main := { s.main with prog := [.write RegName.cmd.number (.const (w.setWidth 32))], pos := 0 },
    events := .main :: s.events }

end Sys2Proof.Machine
end

