-- ==== Sys2Proof/Machine/Step.lean ====
section
/-! DEFINITION. One step of the machine. -/

namespace Sys2Proof.Machine

/-- One step: the next scheduled step of an agent, or of power-on reset (20_memory.md R81). -/
def step (s : State) : Host.Outcome State Fault Refusal := runNext s

/-- The state whose very next step issues this word: the core fetches nothing (20_memory.md R86), so the word stands where
`Main` takes its next operation, and `Main` is the next to step (log entry 3). -/
def State.withFetchWord (s : State) (nbits w : Nat) : State := loadCommand (BitVec.ofNat 16 (w % 2 ^ nbits)) s

end Sys2Proof.Machine
end

