-- ==== Sys2Proof/Machine/Run.lean ====
section
/-! DEFINITION. The end of a run and what is observed there (70_reset_and_hazards.md R249). -/

namespace Sys2Proof.Machine

/-- The output ports at one instant (10_state.md R51). -/
structure Outputs where
  keyLine : Bool
  indicator : Bool
  sidetone : Bool
  failSignal : Bool
deriving DecidableEq, Repr

/-- What a run is observed by: the core state and the output ports (70_reset_and_hazards.md R249). -/
structure Observation where
  core : CoreState
  outputs : Outputs
deriving DecidableEq, Repr

/-- The observation at a state. -/
def State.observation (s : State) : Observation :=
  ⟨s.core, ⟨s.keyLine, s.indicator, s.sidetone, s.failSignal⟩⟩

/-- Has `Main` performed the last operation of its program, with `FATAL = 0`? A refusal leaves no such state, since the run
stops there (70_reset_and_hazards.md R249). -/
def State.goodEnd (s : State) : Bool := s.mainEnded && !s.core.fatal

/-- How a run comes out. -/
inductive RunEnd where
  /-- It ended well, at this state. -/
  | good (s : State)
  /-- It met a fault before a good end. -/
  | fault (r : Fault)
  /-- It met a refusal before a good end. -/
  | refused (r : Refusal)
  /-- No good end within the steps given: `Main` goes on, or holds (60_exceptions.md R218). -/
  | unfinished (s : State)
deriving DecidableEq, Repr

/-- The run of at most `n` steps from `s`: it ends at the FIRST state in which `Main` has performed its last operation with
`FATAL = 0`, whatever the other agents would do after it (70_reset_and_hazards.md R249). -/
def runToEnd : Nat → State → RunEnd
  | 0, s => if s.goodEnd then .good s else .unfinished s
  | n + 1, s =>
    if s.goodEnd then .good s
    else
      match step s with
      | .next t => runToEnd n t
      | .fault r => .fault r
      | .refused r => .refused r

/-- What is observed of a run that ends well. -/
def RunEnd.observation : RunEnd → Option Observation
  | .good s => some s.observation
  | .fault _ => none
  | .refused _ => none
  | .unfinished _ => none

end Sys2Proof.Machine
end

