-- ==== Sys2Proof/Safety.lean ====
section
/-! DEFINITION. The terms claims use: the invariants of 10_state.md section 9, the exact values of the calculator's inputs,
who may issue a command, the clean launch. -/

namespace Sys2Proof.Machine

/-! ### Invariants -/

/-- Panic invariant: `PANICKED = 1` implies `KEYED = 0` (10_state.md R55). -/
def CoreState.panicSilent (c : CoreState) : Prop := c.panicked = true → c.keyed = false

/-- Fatal invariant: `FATAL = 1` implies `KEYED = 0` and `FCODE != 0`; `FATAL = 0` implies `FCODE = 0` (10_state.md R56). -/
def CoreState.fatalSilent (c : CoreState) : Prop :=
  (c.fatal = true → c.keyed = false ∧ c.fcode ≠ 0#8) ∧ (c.fatal = false → c.fcode = 0#8)

/-- Timer invariant, modulo 2^32: `EDUR <= ELOCK - ESTART` (10_state.md R54). -/
def CoreState.timersOrdered (c : CoreState) : Prop := c.edur.toNat ≤ (c.elock - c.estart).toNat

/-- The reserved bits 7:6 of `PENDING` are 0 (10_state.md R37). -/
def CoreState.pendingLegal (c : CoreState) : Prop := c.pending.toNat < 64

/-- The cache is empty, or it holds the durations of its key, a valid configuration (41_timing.md R149, R150). -/
def CoreState.cacheCoherent (c : CoreState) : Prop :=
  (c.cwpm = 0#8 ∧ c.dur = Bank.const 0#32 ∧ c.cscale = Bank.const 0#32) ∨
    (validConfig c.cwpm c.cscale = true ∧ c.dur = calcDurations c.cwpm c.cscale)

/-- The invariants of the core together. -/
structure CoreState.Inv (c : CoreState) : Prop where
  panic : c.panicSilent
  fatal : c.fatalSilent
  timers : c.timersOrdered
  pending : c.pendingLegal
  cache : c.cacheCoherent

/-! ### The calculator's exact values -/

/-- The real value of a finite binary32 pattern, as 41_timing.md R155 writes it. -/
def binary32Value (s : Word) : ℚ :=
  let sign : ℚ := if s.getLsbD 31 then -1 else 1
  let e := (s.extractLsb' 23 8).toNat
  let f : ℚ := (s.extractLsb' 0 23).toNat
  if e = 0 then sign * f * 2 ^ (-149 : ℤ) else sign * (2 ^ 23 + f) * 2 ^ ((e : ℤ) - 150)

/-- A pattern is finite when its exponent field is not 255 (41_timing.md R155). -/
def binary32Finite (s : Word) : Prop := (s.extractLsb' 23 8).toNat ≠ 255

/-- The exact, unrounded duration `K[i] * unit * value32(scale[i])`, `unit = 60000 / (wpm * 50)` (41_timing.md R143). -/
def exactDuration (e : Element) (wpm : BitVec 8) (scale : Bank Word) : ℚ :=
  Config.unitMultiplier e * (60000 / (wpm.toNat * 50)) * binary32Value (scale.get e)

/-! ### Steps and commands -/

/-- `Main` may issue a command: the step is `Main`'s and the core is not in the fatal state (60_exceptions.md R206, R214). -/
def State.mainMayIssue (s : State) : Prop := s.core.fatal = false ∧ s.issuer = .main

/-- `ENQ` may be issued: by `Main` or an `Isr(k)`, and the core is not in the fatal state (40_scheduler.md R114). -/
def State.enqMayIssue (s : State) : Prop :=
  s.core.fatal = false ∧ (s.issuer = .main ∨ ∃ k : IsrSource, s.issuer = .interrupt (.isr k))

/-- The state the fatal entry leaves: three registers written, nothing else (60_exceptions.md R204). -/
def State.fatalWith (s : State) (code : FatalCode) : State :=
  s.withCore { s.core with fatal := true, fcode := code, keyed := false }

/-- A configuration port differs from the cache's key, or the cache is empty (41_timing.md R149). -/
def State.keyDiffers (s : State) : Prop :=
  s.core.cwpm = 0#8 ∨ s.ports.cfgWpm ≠ s.core.cwpm ∨ s.ports.cfgScale ≠ s.core.cscale

/-- `Main` issues `KTICK` in `s`, and it completes in `t`. -/
def State.ktickTo (s t : State) : Prop :=
  s.mainMayIssue ∧ exec .ktick s = .next t ∧ t.core.fatal = false

/-- The next step is `Main`'s, and its operation makes this bus access. -/
def State.mainAccesses (s : State) (rest : List Event) (op : BusOp) : Prop :=
  s.core.fatal = false ∧ s.events = .main :: rest ∧ ∃ m, s.main.current = some m ∧ m.access s.main = some op

/-- The state in which `Main`'s access runs: the scheduled step taken, `Main` the issuer, its position one further. -/
def State.mainFetched (s : State) (rest : List Event) : State :=
  ((s.began rest).asAgent .main).goto (s.main.pos + 1)

/-- The state in which an access from interrupt context runs. -/
def State.handlerFetched (s : State) (rest : List Event) (h : Handler) : State :=
  (s.began rest).asAgent (.interrupt h)

/-- `KTICK` issued at the ticks `t0, t0 + 1, ..., t0 + n`, nothing else stepping between (42_keyer.md R177). -/
def ktickEveryTick (t0 : Tick) (s : State) : Nat → Result
  | 0 => exec .ktick (s.withCore (s.core.setOpa t0))
  | n + 1 =>
    match ktickEveryTick t0 s n with
    | .next t => exec .ktick (t.withCore (t.core.setOpa (t0 + BitVec.ofNat 32 (n + 1))))
    | .fault r => .fault r
    | .refused r => .refused r

/-! ### Runs -/

/-- The ports hold a valid configuration (41_timing.md R141). -/
def State.configValid (s : State) : Prop := validConfig s.ports.cfgWpm s.ports.cfgScale = true

/-- The clean launch of 70_reset_and_hazards.md R248. -/
def State.cleanLaunch (s : State) : Prop := s.core = CoreState.reset ∧ s.main.pos = 0 ∧ s.configValid

end Sys2Proof.Machine
end

