-- ==== Sys2Proof/Certificates/Slice0/Obligations.lean ====
section
/-! DEFINITION. The statements for the provers, one for each entry of OBLIGATIONS.json. -/

open Sys2Proof Sys2Proof.Machine

/-! ### The scheduler's commands (40_scheduler.md) -/

/-- 40_scheduler.md R112. -/
def Obligations.SinitZeroesTickAndPending : Prop :=
  decode 0x1000#16 = .ok .sinit ∧
  ∀ s : State, s.mainMayIssue →
    exec .sinit s = .next (s.withCore { s.core with tick := 0#32, pending := 0#8 })

/-- 40_scheduler.md R113: bit k is 1 after the command, every other bit and register as before; a kind of 6 or more is
fatal with code 1 in decode. -/
def Obligations.EnqSetsExactlyItsBit : Prop :=
  (∀ k : BitVec 4, k.toNat < 6 → decode (0x2#4 ++ k ++ 0x00#8) = .ok (.enq k)) ∧
  (∀ k : BitVec 4, 6 ≤ k.toNat → decode (0x2#4 ++ k ++ 0x00#8) = .error .invalidKind ∧
    DecodeError.invalidKind.code = 0x01#8) ∧
  ∀ (k : BitVec 4) (s : State), k.toNat < 6 → s.enqMayIssue →
    ∃ p : BitVec 8, exec (.enq k) s = .next (s.withCore { s.core with pending := p }) ∧
      ∀ j : Nat, j < 8 → p.getLsbD j = (s.core.pending.getLsbD j || j == k.toNat)

/-- An `ENQ` word with a kind of 6 or more is fatal with code 1 (30_encoding.md section 4). From an `Isr` this is the choice a
model may make by 60_exceptions.md section 1 (R202), with log entry 9's reading of an `ENQ` word. -/
def Obligations.InvalidEventKindIsFatal : Prop :=
  ∀ (k : BitVec 4) (s : State), 6 ≤ k.toNat → s.enqMayIssue →
    issue (0x2#4 ++ k ++ 0x00#8) s = .next (s.fatalWith 0x01#8)

/-- The snapshot and the clear of `WAIT` (40_scheduler.md section 4), the bits of the snapshot that are 0, and the hold, which
in this model is an unchanged next state (log entry 12). -/
def Obligations.WaitTakesSnapshotAndClears : Prop :=
  decode 0x3000#16 = .ok .wait ∧
  ∀ s : State, s.mainMayIssue →
    (s.core.pending = 0#8 → exec .wait s = .next s) ∧
    (s.core.pending ≠ 0#8 → ∃ v : Word,
      exec .wait s = .next (s.withCore { s.core with res := v, pending := 0#8 }) ∧
      v.toNat = s.core.pending.toNat ∧ (s.core.pendingLegal → v.toNat < 64))

/-- `WAIT` never returns an empty set (40_scheduler.md R117, which the spec marks as derived). `Main` has gone past the `WAIT`
when its position has advanced (log entry 12). -/
def Obligations.WaitNeverReturnsEmptySet : Prop :=
  ∀ (s t : State) (rest : List Event) (v : Word), s.mainAccesses rest (.write 0x00#8 v) → v.setWidth 16 = 0x3000#16 →
    step s = .next t → t.main.pos = s.main.pos + 1 → t.core.res ≠ 0#32

/-- The hold of `WAIT` (40_scheduler.md section 4) as this model takes it (log entry 12): `Main` stays at a `WAIT` while
`PENDING = 0`, nothing else changes, and a timer step or an `ENQ` of an `Isr` lifts the hold. -/
def Obligations.WaitHoldsUntilAnEvent : Prop :=
  ∀ (s : State) (rest : List Event) (v : Word),
    s.mainAccesses rest (.write 0x00#8 v) → v.setWidth 16 = 0x3000#16 → s.core.pending = 0#8 →
    step s = .next ((s.began rest).asAgent .main) ∧ s.idle = true ∧
    (∀ rest' : List Event, rest = .timer :: .main :: rest' →
      ∃ u w t : State, step s = .next u ∧ step u = .next w ∧ step w = .next t ∧
        t.core.res = 0x01#32 ∧ t.core.pending = 0#8 ∧ t.main.pos = s.main.pos + 1) ∧
    (∀ (k : IsrSource) (rest' : List Event),
      rest = .access (.isr k) (.write 0x00#8 (k.word.setWidth 32)) :: .main :: rest' →
      ∃ u w t : State, step s = .next u ∧ step u = .next w ∧ step w = .next t ∧
        t.core.res = BitVec.twoPow 32 k.number ∧ t.core.pending = 0#8 ∧ t.main.pos = s.main.pos + 1)

/-- 40_scheduler.md R119. -/
def Obligations.GtickReadsTheTick : Prop :=
  decode 0x4000#16 = .ok .gtick ∧
  ∀ s : State, s.mainMayIssue → exec .gtick s = .next (s.withCore { s.core with res := s.core.tick })

/-- 40_scheduler.md R120. -/
def Obligations.ElapsedIsModularDifference : Prop :=
  decode 0x5000#16 = .ok .elapsed ∧
  ∀ s : State, s.mainMayIssue →
    ∃ v : Word, exec .elapsed s = .next (s.withCore { s.core with res := v }) ∧
      (v.toNat : Int) = ((s.core.opa.toNat : Int) - s.core.opb.toNat) % 2 ^ 32

/-- 40_scheduler.md R122. -/
def Obligations.TgtIsStrictHalfRangeTest : Prop :=
  decode 0x6000#16 = .ok .tgt ∧
  ∀ s : State, s.mainMayIssue →
    exec .tgt s = .next (s.withCore { s.core with
      res := if 0 < ((s.core.opa.toNat : Int) - s.core.opb.toNat) % 2 ^ 32 ∧
                ((s.core.opa.toNat : Int) - s.core.opb.toNat) % 2 ^ 32 < 2 ^ 31 then 1#32 else 0#32 })

/-- 40_scheduler.md R123. -/
def Obligations.TgteIsHalfRangeTest : Prop :=
  decode 0x7000#16 = .ok .tgte ∧
  ∀ s : State, s.mainMayIssue →
    exec .tgte s = .next (s.withCore { s.core with
      res := if ((s.core.opa.toNat : Int) - s.core.opb.toNat) % 2 ^ 32 < 2 ^ 31 then 1#32 else 0#32 })

/-- The five ordering laws (40_scheduler.md R124, which the spec marks as derived). -/
def Obligations.TickOrderingLaws : Prop :=
  ∀ a b : Tick,
    ¬ (isTickGt a b = true ∧ isTickGt b a = true) ∧
    (a ≠ b → (a - b).toNat ≠ 2 ^ 31 → (isTickGt a b = true ↔ isTickGt b a = false)) ∧
    ((a - b).toNat = 2 ^ 31 → (b - a).toNat = 2 ^ 31 ∧ isTickGt a b = false ∧ isTickGt b a = false ∧
      isTickGte a b = false ∧ isTickGte b a = false) ∧
    (isTickGte a b = true ↔ isTickGt a b = true ∨ a = b) ∧
    (isTickGte a b = true ∧ isTickGte b a = true ↔ a = b)

/-- Within half the range, the tests order the unwrapped instants (40_scheduler.md R126, which the spec marks as derived). -/
def Obligations.OrderingCorrectWithinHalfRange : Prop :=
  ∀ a b : Nat, a < b + 2 ^ 31 → b < a + 2 ^ 31 →
    (isTickGt (BitVec.ofNat 32 a) (BitVec.ofNat 32 b) = true ↔ b < a) ∧
    (isTickGte (BitVec.ofNat 32 a) (BitVec.ofNat 32 b) = true ↔ b ≤ a)

/-- The elapsed count of two readings is the number of timer steps between them exactly when that is below 2^32
(40_scheduler.md R121, which the spec marks as derived). -/
def Obligations.ElapsedCountsTimerSteps : Prop :=
  (∀ now start : Tick, ((elapsedTicks now start).toNat : Int) = ((now.toNat : Int) - start.toNat) % 2 ^ 32) ∧
  ∀ a n : Nat, (elapsedTicks (BitVec.ofNat 32 (a + n)) (BitVec.ofNat 32 a)).toNat = n ↔ n < 2 ^ 32

/-! ### The timer (40_scheduler.md section 1) -/

/-- 40_scheduler.md R110. -/
def Obligations.TimerStepAdvancesTick : Prop :=
  ∀ (s : State) (rest : List Event), s.events = .timer :: rest →
    (s.core.fatal = false → ∃ (tk : Tick) (p : BitVec 8),
      step s = .next ((s.handlerFetched rest .timer).withCore { s.core with tick := tk, pending := p }) ∧
      tk.toNat = (s.core.tick.toNat + 1) % 2 ^ 32 ∧
      ∀ j : Nat, j < 8 → p.getLsbD j = (s.core.pending.getLsbD j || j == 0)) ∧
    (s.core.fatal = true → step s = .fault (.halted s.core.fcode))

/-- The wrap law (first part of 40_scheduler.md R111) and the coalescing of tick events (first part of R128), both marked as
derived: after n timer steps the tick is t + n modulo 2^32 and the one event bit is set, whatever n is. -/
def Obligations.TimerStepsWrapAndCoalesce : Prop :=
  ∀ (n : Nat) (s : State) (rest : List Event), s.core.fatal = false →
    s.events = List.replicate (n + 1) .timer ++ rest →
    ∃ t : State, Host.Core.run Sys2Proof.core (n + 1) s = .next t ∧ t.events = rest ∧
      t.core.tick.toNat = (s.core.tick.toNat + (n + 1)) % 2 ^ 32 ∧
      (∀ j : Nat, j < 8 → t.core.pending.getLsbD j = (s.core.pending.getLsbD j || j == 0)) ∧
      t.core = { s.core with tick := t.core.tick, pending := t.core.pending }

/-- Who writes `TICK` (10_state.md section 3): the timer step adds one, `SINIT` by `Main` and power-on reset clear it,
nothing else changes it. -/
def Obligations.OnlyTimerSinitAndResetWriteTick : Prop :=
  ∀ s t : State, step s = .next t →
    t.core.tick = s.core.tick ∨
    (∃ rest, s.events = .timer :: rest ∧ t.core.tick = s.core.tick + 1#32) ∨
    (∃ rest, s.events = .powerOn :: rest ∧ t.core.tick = 0#32) ∨
    (∃ rest v, s.mainAccesses rest (.write 0x00#8 v) ∧ v.setWidth 16 = 0x1000#16 ∧ t.core.tick = 0#32)

/-- No event is lost but by `SINIT` and power-on reset (20_memory.md section 3, 10_state.md sections 3 and 11): a step keeps
every pending bit, or it is a `WAIT` that returns them all, or it is `SINIT` or power-on reset, which discard them. -/
def Obligations.PendingEventsAreNeverLost : Prop :=
  ∀ s t : State, step s = .next t →
    (∀ j : Nat, s.core.pending.getLsbD j = true → t.core.pending.getLsbD j = true) ∨
    (t.core.pending = 0#8 ∧ t.core.res = s.core.pending.setWidth 32 ∧
      ∃ rest v, s.mainAccesses rest (.write 0x00#8 v) ∧ v.setWidth 16 = 0x3000#16) ∨
    (t.core.pending = 0#8 ∧ t.core.tick = 0#32 ∧
      ((∃ rest v, s.mainAccesses rest (.write 0x00#8 v) ∧ v.setWidth 16 = 0x1000#16) ∨
        ∃ rest, s.events = .powerOn :: rest))

/-! ### The calculator (41_timing.md) -/

/-- 41_timing.md R144: the result of `TCALC` on a valid configuration; R145: an invalid one is fatal with code 3 and writes
no `TRES`. -/
def Obligations.TcalcWritesResultsOrIsFatal : Prop :=
  decode 0x8000#16 = .ok .tcalc ∧
  ∀ s : State, s.mainMayIssue →
    (s.configValid → ∃ d : Bank Tick, exec .tcalc s = .next (s.withCore { s.core with tres := d }) ∧
      ∀ e : Element,
        ((d.get e).toNat : ℤ) = ⌊exactDuration e s.ports.cfgWpm s.ports.cfgScale + 1 / 2⌋) ∧
    (¬ s.configValid → exec .tcalc s = .next (s.fatalWith 0x03#8))

/-- 41_timing.md R141: validity by value, and as the pattern range it states for the default parameters. -/
def Obligations.ValidityByValueAndByPattern : Prop :=
  ∀ (wpm : BitVec 8) (scale : Bank Word),
    (validConfig wpm scale = true ↔
      (1 ≤ wpm.toNat ∧ wpm.toNat ≤ 100) ∧
      ∀ e : Element, binary32Finite (scale.get e) ∧
        binary32Value 0x3DCCCCCD#32 ≤ binary32Value (scale.get e) ∧
        binary32Value (scale.get e) ≤ binary32Value 0x41200000#32) ∧
    (validConfig wpm scale = true ↔
      (1 ≤ wpm.toNat ∧ wpm.toNat ≤ 100) ∧
      ∀ e : Element, 0x3DCCCCCD ≤ (scale.get e).toNat ∧ (scale.get e).toNat ≤ 0x41200000)

/-- 41_timing.md R143: each duration is the exact rational product rounded with ties upward. -/
def Obligations.DurationsRoundTheExactProduct : Prop :=
  ∀ (wpm : BitVec 8) (scale : Bank Word), validConfig wpm scale = true →
    ∀ e : Element, (((calcDurations wpm scale).get e).toNat : ℤ) =
      ⌊(([1, 3, 1, 3, 7].getD e.index 0 : ℚ) * (60000 / (wpm.toNat * 50))) * binary32Value (scale.get e) + 1 / 2⌋

/-- The range of the durations (41_timing.md R154, which the spec marks as derived). -/
def Obligations.DurationsStayInRange : Prop :=
  ∀ (wpm : BitVec 8) (scale : Bank Word), validConfig wpm scale = true →
    (∀ e : Element, 1 ≤ ((calcDurations wpm scale).get e).toNat ∧ ((calcDurations wpm scale).get e).toNat ≤ 84000) ∧
    (calcDurations wpm scale).dash.toNat + (calcDurations wpm scale).elementSpace.toNat ≤ 48000

/-- A faster speed never lengthens a duration, and strictly shortens the unrounded one; 37 and 38, and 99 and 100, give equal
Dots at scale 1.0 (41_timing.md R147, which the spec marks as derived). -/
def Obligations.FasterSpeedNeverLengthens : Prop :=
  (∀ (w1 w2 : BitVec 8) (scale : Bank Word), validConfig w1 scale = true → validConfig w2 scale = true →
    w1.toNat < w2.toNat → ∀ e : Element,
      ((calcDurations w2 scale).get e).toNat ≤ ((calcDurations w1 scale).get e).toNat ∧
      exactDuration e w2 scale < exactDuration e w1 scale) ∧
  (calcDurations 37#8 (Bank.const 0x3F800000#32)).dot = 32#32 ∧
  (calcDurations 38#8 (Bank.const 0x3F800000#32)).dot = 32#32 ∧
  (calcDurations 99#8 (Bank.const 0x3F800000#32)).dot = 12#32 ∧
  (calcDurations 100#8 (Bank.const 0x3F800000#32)).dot = 12#32

/-- The ratio laws at unit scale (41_timing.md R146, which the spec marks as derived). -/
def Obligations.UnitScaleRatioLaws : Prop :=
  (∀ wpm : BitVec 8, 1 ≤ wpm.toNat → wpm.toNat ≤ 100 →
    ∀ d : Bank Tick, d = calcDurations wpm (Bank.const 0x3F800000#32) →
      d.elementSpace = d.dot ∧ d.letterSpace = d.dash ∧
      (∀ e : Element, |((d.get e).toNat : ℚ) - Config.unitMultiplier e * (1200 / wpm.toNat)| ≤ 1 / 2) ∧
      |(d.dash.toNat : ℤ) - 3 * d.dot.toNat| ≤ 1 ∧ |(d.letterSpace.toNat : ℤ) - 3 * d.dot.toNat| ≤ 1 ∧
      |(d.wordSpace.toNat : ℤ) - 7 * d.dot.toNat| ≤ 3) ∧
  (calcDurations 7#8 (Bank.const 0x3F800000#32)).dot = 171#32 ∧
  (calcDurations 7#8 (Bank.const 0x3F800000#32)).wordSpace = 1200#32

/-- 41_timing.md R149, 42_keyer.md R163: the cache refresh that every `KTICK` begins with. -/
def Obligations.KtickRefreshesTheCache : Prop :=
  ∀ s : State, s.mainMayIssue →
    (s.keyDiffers → ¬ s.configValid → exec .ktick s = .next (s.fatalWith 0x03#8)) ∧
    (s.keyDiffers → s.configValid → ∃ t : State, exec .ktick s = .next t ∧
      t.core.dur = calcDurations s.ports.cfgWpm s.ports.cfgScale ∧
      t.core.cwpm = s.ports.cfgWpm ∧ t.core.cscale = s.ports.cfgScale) ∧
    (¬ s.keyDiffers → ∃ t : State, exec .ktick s = .next t ∧ t.core.fatal = false ∧
      t.core.dur = s.core.dur ∧ t.core.cwpm = s.core.cwpm ∧ t.core.cscale = s.core.cscale)

/-! ### The keyer (42_keyer.md) -/

/-- 42_keyer.md R161. -/
def Obligations.KinitEmptiesTheKeyer : Prop :=
  decode 0x9000#16 = .ok .kinit ∧
  ∀ s : State, s.mainMayIssue →
    exec .kinit s = .next (s.withCore { s.core with
      kstate := .off, estart := 0#32, edur := 0#32, elock := 0#32, panicked := false, keyed := false,
      dur := ⟨0#32, 0#32, 0#32, 0#32, 0#32⟩, cscale := ⟨0#32, 0#32, 0#32, 0#32, 0#32⟩, cwpm := 0#8 })

/-- 42_keyer.md R180. -/
def Obligations.KpanicSilencesAtOnce : Prop :=
  decode 0xB000#16 = .ok .kpanic ∧
  ∀ s : State, s.mainMayIssue →
    exec .kpanic s = .next (s.withCore { s.core with keyed := false, panicked := true })

/-- 42_keyer.md R165, R166, R169: `KTICK` completes whenever the cache's key matches or the configuration is valid, and the
state after it, also in `STATUS[1:0]`, is the next state of the inputs. Its frame: only the keyer's registers and the cache
change. -/
def Obligations.KtickCompletesInTheNextState : Prop :=
  ∀ s : State, s.mainMayIssue → (¬ s.keyDiffers ∨ s.configValid) →
    ∃ t : State, exec .ktick s = .next t ∧ t.core.fatal = false ∧
      t.core.kstate =
        (if s.ports.inSk then KState.on
         else if s.ports.inL ∧ s.ports.inR then s.core.kstate
         else if (if s.ports.cfgInvert then s.ports.inR else s.ports.inL) then KState.dots
         else if (if s.ports.cfgInvert then s.ports.inL else s.ports.inR) then KState.dashes
         else KState.off) ∧
      t.core.status.extractLsb' 0 2 =
        (match t.core.kstate with | .off => 0#2 | .on => 1#2 | .dots => 2#2 | .dashes => 3#2) ∧
      t = s.withCore { s.core with
        kstate := t.core.kstate, estart := t.core.estart, edur := t.core.edur, elock := t.core.elock,
        panicked := t.core.panicked, keyed := t.core.keyed, dur := t.core.dur, cwpm := t.core.cwpm,
        cscale := t.core.cscale }

/-- The first branch of the element action (42_keyer.md section 3), not panicked: when the lockout has expired and the state
just changed or the output is silent, an element of the state's duration begins. -/
def Obligations.ElementBeginsWhenLockoutExpired : Prop :=
  ∀ s t : State, s.ktickTo t → s.core.panicked = false →
    (t.core.kstate = .dots ∨ t.core.kstate = .dashes) →
    (s.core.elock - s.core.estart).toNat ≤ (s.core.opa - s.core.estart).toNat →
    (t.core.kstate ≠ s.core.kstate ∨ s.core.keyed = false) →
    t.core.keyed = true ∧ t.core.panicked = false ∧ t.core.estart = s.core.opa ∧
    t.core.edur = (if t.core.kstate = .dots then t.core.dur.dot else t.core.dur.dash) ∧
    t.core.elock = s.core.opa + t.core.edur + t.core.dur.elementSpace

/-- The second branch of the element action (42_keyer.md section 3), not panicked: where no element begins, an output whose
duration has elapsed goes silent, and nothing else of the timers and flags changes. -/
def Obligations.ElementEndsWhenDurationElapsed : Prop :=
  ∀ s t : State, s.ktickTo t → s.core.panicked = false →
    (t.core.kstate = .dots ∨ t.core.kstate = .dashes) →
    ((s.core.opa - s.core.estart).toNat < (s.core.elock - s.core.estart).toNat ∨
      (t.core.kstate = s.core.kstate ∧ s.core.keyed = true)) →
    t.core.keyed = (s.core.keyed && decide ((s.core.opa - s.core.estart).toNat < s.core.edur.toNat)) ∧
    t.core.panicked = false ∧
    t.core.estart = s.core.estart ∧ t.core.edur = s.core.edur ∧ t.core.elock = s.core.elock

/-- The Off and On actions (42_keyer.md section 3), not panicked: Off silences the output once the recorded duration has
elapsed, On keys it; the timers are not written. -/
def Obligations.OffAndOnActions : Prop :=
  ∀ s t : State, s.ktickTo t → s.core.panicked = false → (t.core.kstate = .off ∨ t.core.kstate = .on) →
    t.core.keyed =
      (if t.core.kstate = .on then true
       else s.core.keyed && decide ((s.core.opa - s.core.estart).toNat < s.core.edur.toNat)) ∧
    t.core.panicked = false ∧
    t.core.estart = s.core.estart ∧ t.core.edur = s.core.edur ∧ t.core.elock = s.core.elock

/-- `ClearPanic` and what follows it in the same step (42_keyer.md sections 3 and 4): a state change clears a panic, and in
the same step On keys and an element begins at once with no lockout; Off stays silent with the timers zeroed. -/
def Obligations.StateChangeClearsPanic : Prop :=
  ∀ s t : State, s.ktickTo t → s.core.panicked = true → t.core.kstate ≠ s.core.kstate →
    t.core.panicked = false ∧
    (t.core.kstate = .off → t.core.keyed = false) ∧
    (t.core.kstate = .on → t.core.keyed = true) ∧
    ((t.core.kstate = .off ∨ t.core.kstate = .on) →
      t.core.estart = 0#32 ∧ t.core.edur = 0#32 ∧ t.core.elock = 0#32) ∧
    ((t.core.kstate = .dots ∨ t.core.kstate = .dashes) →
      t.core.keyed = true ∧ t.core.estart = s.core.opa ∧
      t.core.edur = (if t.core.kstate = .dots then t.core.dur.dot else t.core.dur.dash) ∧
      t.core.elock = s.core.opa + t.core.edur + t.core.dur.elementSpace)

/-- The persistence of a panic (42_keyer.md section 4): while the next state equals the current one the output stays silent,
the flag set and the timers as they were. -/
def Obligations.PanicPersistsWhileStateHolds : Prop :=
  ∀ s t : State, s.ktickTo t → s.core.panicSilent → s.core.panicked = true → t.core.kstate = s.core.kstate →
    t.core.keyed = false ∧ t.core.panicked = true ∧
    t.core.estart = s.core.estart ∧ t.core.edur = s.core.edur ∧ t.core.elock = s.core.elock

/-- A squeeze holds On keyed, and from Off with the output silent it keys nothing (42_keyer.md R183, which the spec marks as
derived). -/
def Obligations.SqueezeHoldsTheState : Prop :=
  ∀ s t : State, s.ktickTo t → s.ports.inSk = false → s.ports.inL = true → s.ports.inR = true →
    t.core.kstate = s.core.kstate ∧
    (s.core.kstate = .on → s.core.panicked = false → t.core.keyed = true) ∧
    (s.core.kstate = .off → s.core.keyed = false → t.core.keyed = false)

/-- A refresh does not rewrite the timers of an element in progress: in a state that persists with the output keyed, the old
element finishes with its old durations (41_timing.md R153, which the spec marks as derived). -/
def Obligations.SpeedChangeKeepsElementInProgress : Prop :=
  ∀ s t : State, s.ktickTo t → s.core.keyed = true → t.core.kstate = s.core.kstate →
    t.core.estart = s.core.estart ∧ t.core.edur = s.core.edur ∧ t.core.elock = s.core.elock

/-- With the dot paddle held and `KTICK` at every tick, each element is keyed for exactly d calls and silent for exactly s (one
where s = 0), with no drift, across a wrap of the tick as well (42_keyer.md R177, which the spec marks as derived; d + s is
below HALF, as 00_scope.md section 4 requires of every configuration). -/
def Obligations.HeldPaddleGivesDriftFreeTrain : Prop :=
  ∀ (s : State) (t0 : Tick) (d sp : Nat),
    s.mainMayIssue → ¬ s.keyDiffers → s.ports.inSk = false →
    (if s.ports.cfgInvert then s.ports.inR else s.ports.inL) = true →
    (if s.ports.cfgInvert then s.ports.inL else s.ports.inR) = false →
    s.core.panicked = false → s.core.kstate ≠ .dots →
    (s.core.elock - s.core.estart).toNat ≤ (t0 - s.core.estart).toNat →
    s.core.dur.dot.toNat = d → s.core.dur.elementSpace.toNat = sp → 1 ≤ d → d + sp < 2 ^ 31 →
    ∀ n : Nat, ∃ t : State, ktickEveryTick t0 s n = .next t ∧ t.core.kstate = .dots ∧
      t.core.keyed = decide (n % (d + max sp 1) < d)

/-- What is true of 42_keyer.md's idempotence rule (log entry 16): a second `KTICK` with the same `OPA` and ports changes
nothing, unless the first came after the lockout with the output still keyed in a state that persists. -/
def Obligations.KtickTwiceIsKtickOnce : Prop :=
  ∀ s t : State, s.core.Inv → s.ktickTo t →
    ¬ (t.core.kstate = s.core.kstate ∧ (s.core.kstate = .dots ∨ s.core.kstate = .dashes) ∧ s.core.keyed = true ∧
        (s.core.elock - s.core.estart).toNat ≤ (s.core.opa - s.core.estart).toNat) →
    exec .ktick t = .next t

/-- The exception the operational rules force beyond the one the spec's idempotence rule names (log entry 16): with every
duration at least 1, a late `KTICK` ends the element and the same `KTICK` again begins the next. -/
def Obligations.LateKtickTwiceBeginsAnElement : Prop :=
  ∃ s t u : State, s.core.Inv ∧ (∀ e : Element, 1 ≤ (s.core.dur.get e).toNat) ∧ s.ktickTo t ∧ t.ktickTo u ∧
    t.core.keyed = false ∧ u.core.keyed = true

/-! ### Invariants and whole-machine rules -/

/-- The invariants of 10_state.md section 9, the reserved bits of `PENDING` and the coherence of the cache hold after every
step of every agent. -/
def Obligations.EveryStepKeepsTheInvariants : Prop :=
  ∀ s t : State, s.core.Inv → step s = .next t → t.core.Inv

/-- The invariants hold at reset. -/
def Obligations.ResetMeetsTheInvariants : Prop := State.reset.core.Inv

/-- 60_exceptions.md R207: no command, bus access or agent step clears `FATAL`; only power-on reset does. In the fatal state
no register of the core changes otherwise. -/
def Obligations.OnlyPowerOnLeavesTheFatalState : Prop :=
  ∀ s t : State, s.core.fatal = true → step s = .next t →
    t.core = s.core ∨ ((∃ rest, s.events = .powerOn :: rest) ∧ t.core = CoreState.reset ∧ t.core.fatal = false)

/-- 60_exceptions.md R206: in the fatal state `Main`, `Timer` and `Isr` have no step, `Env` may step, and the outputs are the
de-energized ones. -/
def Obligations.FatalStateHaltsEveryAgentButEnv : Prop :=
  ∀ s : State, s.core.fatal = true →
    (∀ (rest : List Event) (h : Handler) (op : BusOp),
      (s.events = .main :: rest ∨ s.events = .timer :: rest ∨ s.events = .access h op :: rest) →
      step s = .fault (.halted s.core.fcode)) ∧
    (∀ (rest : List Event) (p : Ports), s.events = .env p :: rest →
      ∃ t : State, step s = .next t ∧ t.core = s.core ∧ t.ports = p ∧ t.main = s.main) ∧
    (s.core.fatalSilent →
      s.keyLine = s.ports.cfgActiveLow ∧ s.sidetone = false ∧ s.failSignal = true)

/-- 60_exceptions.md R204, the precise fatal entry: whatever word is issued, a step that enters the fatal state
writes the three registers and nothing else, and the code is 1, 2 or 3. -/
def Obligations.FatalEntryIsPrecise : Prop :=
  ∀ (w : Cmd) (s t : State), s.core.fatal = false → issue w s = .next t → t.core.fatal = true →
    t = s.fatalWith t.core.fcode ∧ (t.core.fcode = 0x01#8 ∨ t.core.fcode = 0x02#8 ∨ t.core.fcode = 0x03#8)

/-- Which command writes which register (10_state.md sections 2 to 5): `OPA` and `OPB` none; every other register only the
commands the register map names, with the flags: `KEYED` only `KINIT`, `KTICK`, `KPANIC` and the fatal entry, `FATAL` and
`FCODE` only the fatal entry, which `ENQ`, `TCALC` and `KTICK` alone can make; and never the ports, `Main` or the schedule. -/
def Obligations.CommandsWriteOnlyTheirRegisters : Prop :=
  ∀ (i : Instr) (s t : State), exec i s = .next t →
    t = s.withCore t.core ∧ t.core.opa = s.core.opa ∧ t.core.opb = s.core.opb ∧
    ((∀ k, i ≠ .enq k) → i ≠ .sinit → i ≠ .wait → t.core.pending = s.core.pending) ∧
    (i ≠ .sinit → t.core.tick = s.core.tick) ∧
    (i ≠ .wait → i ≠ .gtick → i ≠ .elapsed → i ≠ .tgt → i ≠ .tgte → t.core.res = s.core.res) ∧
    (i ≠ .tcalc → t.core.tres = s.core.tres) ∧
    (i ≠ .kinit → i ≠ .ktick → t.core.kstate = s.core.kstate ∧ t.core.estart = s.core.estart ∧
      t.core.edur = s.core.edur ∧ t.core.elock = s.core.elock ∧ t.core.dur = s.core.dur ∧
      t.core.cwpm = s.core.cwpm ∧ t.core.cscale = s.core.cscale) ∧
    (i ≠ .kinit → i ≠ .ktick → i ≠ .kpanic → t.core.panicked = s.core.panicked) ∧
    ((t.core.fatal = s.core.fatal ∧ t.core.fcode = s.core.fcode ∧
        (i ≠ .kinit → i ≠ .ktick → i ≠ .kpanic → t.core.keyed = s.core.keyed)) ∨
      (((∃ k, i = .enq k) ∨ i = .tcalc ∨ i = .ktick) ∧ ∃ code : FatalCode, t = s.fatalWith code))

/-- The output is energized by `KTICK` alone, issued by `Main`, and never while panicked (10_state.md sections 4 and 9,
60_exceptions.md section 4): a step that turns `KEYED` on is `Main` issuing `KTICK`, and it leaves the core unpanicked. -/
def Obligations.OnlyKtickEnergizes : Prop :=
  ∀ s t : State, step s = .next t → s.core.keyed = false → t.core.keyed = true →
    t.core.panicked = false ∧
    ∃ rest v, s.mainAccesses rest (.write 0x00#8 v) ∧ v.setWidth 16 = 0xA000#16

/-- Interrupts leave `Main`'s registers and the keyer alone (70_reset_and_hazards.md section 3): a step from interrupt context
changes `TICK` and `PENDING` only, or enters the fatal state with code 1. The fatal entry is there because this model lets an
`Isr` issue any `ENQ` word, as 60_exceptions.md section 1 (R202) says a model may, with log entry 9's reading of such a word. -/
def Obligations.InterruptsTouchOnlyTheScheduler : Prop :=
  ∀ (s t : State) (rest : List Event) (h : Handler) (op : BusOp),
    (s.events = .timer :: rest ∨ s.events = .access h op :: rest) → step s = .next t →
    t.main = s.main ∧ t.ports = s.ports ∧
    (t.core = { s.core with tick := t.core.tick, pending := t.core.pending } ∨
      t.core = { s.core with fatal := true, fcode := 0x01#8, keyed := false })

/-- The contexts (60_exceptions.md section 4): from any agent but `Main` every command but `ENQ` is refused, and `ENQ` is
refused to the timer; the refusal is no fatal condition. -/
def Obligations.ContextsRefuseCommands : Prop :=
  ∀ (i : Instr) (s : State), s.core.fatal = false → s.issuer ≠ .main →
    ((∀ k, i ≠ .enq k) → exec i s = .refused (.contextForbids s.issuer)) ∧
    (∀ k, i = .enq k → s.issuer = .interrupt .timer → exec i s = .refused (.contextForbids s.issuer))

/-! ### The bus (20_memory.md) -/

/-- The bus read (20_memory.md section 2) with the map and the `STATUS` view of 10_state.md sections 8 and 6: what a read by
`Main` of each number from 0x01 to 0x17 returns, and that it changes no register. -/
def Obligations.BusReadReturnsTheRegister : Prop :=
  (∀ c : CoreState, c.status.toNat =
    c.fcode.toNat * 256 + c.fatal.toNat * 16 + c.panicked.toNat * 8 + c.keyed.toNat * 4 +
      (match c.kstate with | .off => 0 | .on => 1 | .dots => 2 | .dashes => 3)) ∧
  ∀ (s : State) (rest : List Event) (n : RegNum), s.mainAccesses rest (.read n) → 0x01 ≤ n.toNat → n.toNat ≤ 0x17 →
    ∃ v : Word, step s = .next ((s.mainFetched rest).receive v) ∧
      some v.toNat =
        [0, s.core.opa.toNat, s.core.opb.toNat, s.core.res.toNat, s.core.status.toNat, s.core.estart.toNat,
          s.core.edur.toNat, s.core.elock.toNat,
          s.core.dur.dot.toNat, s.core.dur.dash.toNat, s.core.dur.elementSpace.toNat, s.core.dur.letterSpace.toNat,
          s.core.dur.wordSpace.toNat,
          s.core.tres.dot.toNat, s.core.tres.dash.toNat, s.core.tres.elementSpace.toNat,
          s.core.tres.letterSpace.toNat, s.core.tres.wordSpace.toNat,
          s.core.cwpm.toNat,
          s.core.cscale.dot.toNat, s.core.cscale.dash.toNat, s.core.cscale.elementSpace.toNat,
          s.core.cscale.letterSpace.toNat, s.core.cscale.wordSpace.toNat][n.toNat]?

/-- The bus write (20_memory.md section 2): writes by `Main` of `OPA` and `OPB`, and of `CMD`, whose upper half is ignored.
The state a held `WAIT` leaves is in another statement. -/
def Obligations.BusWriteReachesItsRegister : Prop :=
  ∀ (s : State) (rest : List Event) (v : Word),
    (s.mainAccesses rest (.write 0x01#8 v) →
      step s = .next ((s.mainFetched rest).withCore { s.core with opa := v })) ∧
    (s.mainAccesses rest (.write 0x02#8 v) →
      step s = .next ((s.mainFetched rest).withCore { s.core with opb := v })) ∧
    (s.mainAccesses rest (.write 0x00#8 v) →
      (v.setWidth 16 = 0x3000#16 → s.core.pending ≠ 0#8) →
      step s = issue (v.setWidth 16) (s.mainFetched rest))

/-- The refused accesses (20_memory.md section 2), each by its own name; what an `ENQ` word of an `Isr` is rests on log
entry 9. -/
def Obligations.MeaninglessAccessesAreRefused : Prop :=
  ∀ (s : State) (rest : List Event) (n : RegNum) (v : Word),
    (s.mainAccesses rest (.read 0x00#8) → step s = .refused .readOfCmd) ∧
    ((s.mainAccesses rest (.read n) ∨ s.mainAccesses rest (.write n v)) → 0x18 ≤ n.toNat →
      step s = .refused (.unassignedRegister n)) ∧
    (s.mainAccesses rest (.write n v) → 0x03 ≤ n.toNat → n.toNat ≤ 0x17 →
      step s = .refused (.readOnlyRegister n)) ∧
    (∀ op : BusOp, s.core.fatal = false → s.events = .access .timer op :: rest →
      step s = .refused (.interruptAccess (.interrupt .timer))) ∧
    (∀ k : IsrSource, s.core.fatal = false →
      (s.events = .access (.isr k) (.read n) :: rest ∨ (s.events = .access (.isr k) (.write n v) :: rest ∧ n ≠ 0x00#8)) →
      step s = .refused (.interruptAccess (.interrupt (.isr k)))) ∧
    (∀ k : IsrSource, s.core.fatal = false → s.events = .access (.isr k) (.write 0x00#8 v) :: rest →
      v.toNat / 4096 % 16 ≠ 2 → ∃ r : Refusal, step s = .refused r)

/-! ### Encoding (30_encoding.md) -/

/-- Decoding the word of a legal command gives the command back, with every kind. -/
def Obligations.DecodeOfEncodeIsIdentity : Prop :=
  ∀ i : Instr, i.wellFormed = true → decode (encode i) = .ok i

/-- Whatever word decodes is the word of the command it decodes to: no bit of a legal word is ignored. -/
def Obligations.OnlyEncodingsDecode : Prop :=
  ∀ (w : Cmd) (i : Instr), decode w = .ok i → i.wellFormed = true ∧ encode i = w

/-- 30_encoding.md R105: a word is legal exactly when it fits a row of the opcode table and, for `ENQ`, its kind is below 6. -/
def Obligations.LegalWordsFitTheTable : Prop :=
  ∀ w : Cmd, (∃ i, decode w = .ok i) ↔
    ∃ r ∈ opcodeTable, w &&& r.mask = r.pattern ∧ (r.mnemonic = "ENQ" → w.toNat / 256 % 16 < 6)

/-- 30_encoding.md R97: the illegal words are fatal with code 2, and sixteen words are legal. -/
def Obligations.IllegalWordsAreFatal : Prop :=
  (∀ (w : Cmd) (s : State), s.mainMayIssue →
    (w.toNat / 4096 = 0 ∨ 0xC ≤ w.toNat / 4096 ∨ w.toNat % 256 ≠ 0 ∨
      (w.toNat / 4096 ≠ 2 ∧ w.toNat / 256 % 16 ≠ 0)) →
    issue w s = .next (s.fatalWith 0x02#8)) ∧
  ∀ w : Cmd, (∃ i, decode w = .ok i) ↔
    w ∈ [0x1000#16, 0x2000#16, 0x2100#16, 0x2200#16, 0x2300#16, 0x2400#16, 0x2500#16, 0x3000#16, 0x4000#16, 0x5000#16,
      0x6000#16, 0x7000#16, 0x8000#16, 0x9000#16, 0xA000#16, 0xB000#16]

/-- Words written out from 30_encoding.md's assembler table stand for their commands. -/
def Obligations.WrittenWordsDecode : Prop :=
  decode 0b0001000000000000#16 = .ok .sinit ∧ decode 0b0010010100000000#16 = .ok (.enq 5#4) ∧
  decode 0b1000000000000000#16 = .ok .tcalc ∧ decode 0b1010000000000000#16 = .ok .ktick ∧
  decode 0b0010010100000001#16 = .error .reservedBits

/-! ### Steps, reset, outputs -/

/-- A step of `Main` that writes a legal word to `CMD` runs the decoded command in the state with the step taken and `Main`
one operation further; a `WAIT` that holds is a step that leaves `Main` at it, which is the model's choice (log entry 12); an
`Isr` write of a legal word runs it too. -/
def Obligations.StepRunsTheDecodedCommand : Prop :=
  ∀ (s : State) (rest : List Event) (v : Word) (i : Instr), decode (v.setWidth 16) = .ok i →
    (s.mainAccesses rest (.write 0x00#8 v) → (i = .wait → s.core.pending ≠ 0#8) →
      step s = exec i (s.mainFetched rest)) ∧
    (s.mainAccesses rest (.write 0x00#8 v) → i = .wait → s.core.pending = 0#8 →
      step s = exec i ((s.began rest).asAgent .main)) ∧
    (∀ k : IsrSource, s.core.fatal = false → s.events = .access (.isr k) (.write 0x00#8 v) :: rest →
      step s = exec i (s.handlerFetched rest (.isr k)))

/-- Reset (10_state.md section 11, 70_reset_and_hazards.md section 1): power-on reset sets every register of the core to its
reset value, from every state, the ports stay and the outputs follow; that the steps scheduled after it stay too is the
model's choice (log entry 13). From a state that is not fatal, `SINIT` then `KINIT` leaves the reset state but for `OPA`,
`OPB`, `RES` and `TRES`. -/
def Obligations.PowerOnResetsTheCore : Prop :=
  (∀ (s : State) (rest : List Event), s.events = .powerOn :: rest →
    ∃ t : State, step s = .next t ∧ t.ports = s.ports ∧ t.events = rest ∧
      t.core = {
        tick := 0#32, pending := 0#8, opa := 0#32, opb := 0#32, res := 0#32, kstate := .off,
        estart := 0#32, edur := 0#32, elock := 0#32, panicked := false, keyed := false, fatal := false,
        fcode := 0#8, dur := ⟨0#32, 0#32, 0#32, 0#32, 0#32⟩, tres := ⟨0#32, 0#32, 0#32, 0#32, 0#32⟩,
        cwpm := 0#8, cscale := ⟨0#32, 0#32, 0#32, 0#32, 0#32⟩ } ∧
      t.keyLine = s.ports.cfgActiveLow ∧ t.indicator = false ∧ t.sidetone = false ∧ t.failSignal = false) ∧
  ∀ s : State, s.mainMayIssue → s.core.fatalSilent →
    ∃ t u : State, exec .sinit s = .next t ∧ exec .kinit t = .next u ∧
      u = s.withCore { CoreState.reset with
        opa := s.core.opa, opb := s.core.opb, res := s.core.res, tres := s.core.tres }

/-- 10_state.md R51: the output ports are functions of the state; while `FATAL = 1` nothing is said of `INDICATOR`. -/
def Obligations.OutputsFollowTheState : Prop :=
  ∀ s : State,
    s.keyLine = Bool.xor s.core.keyed s.ports.cfgActiveLow ∧ s.sidetone = s.core.keyed ∧ s.failSignal = s.core.fatal ∧
    (s.core.fatal = false → s.indicator = s.core.keyed)

/-- `Env` may change any of the ports in one step, at any time, and changes nothing else of the machine's registers
(60_exceptions.md section 1); `KEY_LINE` follows `CFG_ACTIVE_LOW` at once. The step is taken from the schedule (log entry 1). -/
def Obligations.EnvStepChangesOnlyPorts : Prop :=
  ∀ (s : State) (rest : List Event) (p : Ports), s.events = .env p :: rest →
    ∃ t : State, step s = .next t ∧ t.ports = p ∧ t.core = s.core ∧ t.main = s.main ∧ t.events = rest ∧
      t.keyLine = Bool.xor s.core.keyed p.cfgActiveLow

/-! ### `Main`'s program and the end of a run -/

/-- `Main` takes its operations in program order (60_exceptions.md section 1), in the form of log entries 2, 4 and 12: a step
of `Main` that goes on leaves its program; past the end it changes nothing; a read adds the value read and goes to the next
operation; a write goes to the next operation, or holds at a `WAIT`; an assignment changes the one local value, a branch only
the position, and neither touches the core. -/
def Obligations.MainRunsItsProgramInOrder : Prop :=
  ∀ (s t : State) (rest : List Event), s.events = .main :: rest → step s = .next t →
    t.main.prog = s.main.prog ∧ t.ports = s.ports ∧ t.events = rest ∧
    match s.main.current with
    | none => t.main = s.main ∧ t.core = s.core
    | some (.read _) =>
      t.core = s.core ∧ ∃ v : Word, t.main = { s.main with pos := s.main.pos + 1, reads := v :: s.main.reads }
    | some (.write _ _) =>
      t.main = { s.main with pos := s.main.pos + 1 } ∨ (s.idle = true ∧ t.main = s.main ∧ t.core = s.core)
    | some (.assign x value) =>
      t.core = s.core ∧ t.main = { s.main with pos := s.main.pos + 1, locals := t.main.locals } ∧
      t.main.varValue x = value.eval s.main ∧ ∀ y : Nat, y ≠ x → t.main.varValue y = s.main.varValue y
    | some (.branch cond target) =>
      t.core = s.core ∧
      t.main = { s.main with pos := if cond.eval s.main ≠ 0#32 then target else s.main.pos + 1 }

/-- A run ends at the FIRST state in which `Main` has performed its last operation with `FATAL = 0` and no refusal met
(70_reset_and_hazards.md section 5), and is observed there by the core and the output ports. Steps are the model's
(log entries 2 and 12). -/
def Obligations.RunEndsAtTheFirstGoodEnd : Prop :=
  (∀ (n : Nat) (s t : State), runToEnd n s = .good t ↔
    (t.main.current = none ∧ t.core.fatal = false) ∧
    ∃ m : Nat, m ≤ n ∧ Host.Core.run Sys2Proof.core m s = .next t ∧
      ∀ k : Nat, k < m → ∃ u : State, Host.Core.run Sys2Proof.core k s = .next u ∧
        ¬ (u.main.current = none ∧ u.core.fatal = false)) ∧
  ∀ t : State, t.core.fatal = false → (RunEnd.good t).observation =
    some ⟨t.core, ⟨Bool.xor t.core.keyed t.ports.cfgActiveLow, t.core.keyed, t.core.keyed, false⟩⟩
end

