-- ==== Sys2Proof/Laws/Decode.lean ====
section
/-! SUPPORT. The decoder: its fields as numbers, and everything it can answer. -/

namespace Sys2Proof

theorem opField_toNat (w : Cmd) : (opField w).toNat = w.toNat / 4096 := by
  have := w.isLt
  simp only [opField, BitVec.extractLsb'_toNat, Nat.shiftRight_eq_div_pow]
  omega

theorem kindField_toNat (w : Cmd) : (kindField w).toNat = w.toNat / 256 % 16 := by
  simp only [kindField, BitVec.extractLsb'_toNat, Nat.shiftRight_eq_div_pow]

theorem rsvField_toNat (w : Cmd) : (rsvField w).toNat = w.toNat % 256 := by
  simp only [rsvField, BitVec.extractLsb'_toNat, Nat.shiftRight_eq_div_pow]
  omega

/-- A word is given by its three fields. -/
theorem toNat_of_fields (w : Cmd) :
    w.toNat = (opField w).toNat * 4096 + (kindField w).toNat * 256 + (rsvField w).toNat := by
  rw [opField_toNat, kindField_toNat, rsvField_toNat]
  omega

/-- Everything a successful decoding says: no reserved bit is set, `KIND` is 0 or a legal kind of `ENQ`, and `OP` selects the
command. -/
theorem decode_eq_ok {w : Cmd} {i : Instr} (h : decode w = .ok i) :
    selectOp (opField w) (kindField w) = some i ∧ rsvField w = 0#8 ∧
      (opField w ≠ opEnq → kindField w = 0#4) ∧ (opField w = opEnq → legalKind (kindField w) = true) := by
  unfold decode at h
  split at h
  · cases h
  · rename_i i' hi
    split_ifs at h with h1 h2 h3
    cases h
    refine ⟨hi, by simpa using h1, ?_, ?_⟩
    · intro ho
      by_contra hk
      exact h2 ⟨ho, hk⟩
    · intro ho
      by_contra hk
      exact h3 ⟨ho, by simpa using hk⟩

/-- Everything a failed decoding says, in the order of the checks. -/
theorem decode_eq_error {w : Cmd} {e : DecodeError} (h : decode w = .error e) :
    (e = .reservedOp ∧ selectOp (opField w) (kindField w) = none) ∨
    (e = .reservedBits ∧ rsvField w ≠ 0#8) ∨
    (e = .kindOnNonEnq ∧ opField w ≠ opEnq ∧ kindField w ≠ 0#4) ∨
    (e = .invalidKind ∧ opField w = opEnq ∧ rsvField w = 0#8 ∧ legalKind (kindField w) = false) := by
  unfold decode at h
  split at h
  · cases h; exact .inl ⟨rfl, by assumption⟩
  · split_ifs at h with h1 h2 h3
    · cases h; exact .inr (.inl ⟨rfl, h1⟩)
    · cases h; exact .inr (.inr (.inl ⟨rfl, h2⟩))
    · cases h; exact .inr (.inr (.inr ⟨rfl, h3.1, by simpa using h1, h3.2⟩))

/-- The operations `OP` does not select are 0x0 and 0xC to 0xF. -/
theorem selectOp_eq_none_iff (op kind : BitVec 4) : selectOp op kind = none ↔ op.toNat = 0 ∨ 0xC ≤ op.toNat := by
  have hlt := op.isLt
  unfold selectOp
  generalize op.toNat = n at hlt ⊢
  interval_cases n <;> simp

end Sys2Proof
end

