-- ==== Sys2Proof/Laws/State.lean ====
section
/-! SUPPORT. What every named update of the state does to every field, one lemma each, so that no proof unfolds a record
update. -/

namespace Sys2Proof.Machine

/-- Two cores that agree on every register are the same core. -/
theorem CoreState.ext_fields {c d : CoreState}
    (h0 : c.tick = d.tick) (h1 : c.pending = d.pending) (h2 : c.opa = d.opa) (h3 : c.opb = d.opb) (h4 : c.res =
    d.res) (h5 : c.kstate = d.kstate) (h6 : c.estart = d.estart) (h7 : c.edur = d.edur) (h8 : c.elock = d.elock)
    (h9 : c.panicked = d.panicked) (h10 : c.keyed = d.keyed) (h11 : c.fatal = d.fatal) (h12 : c.fcode = d.fcode)
    (h13 : c.dur = d.dur) (h14 : c.tres = d.tres) (h15 : c.cwpm = d.cwpm) (h16 : c.cscale = d.cscale) : c = d := by
  cases c; cases d; simp_all

variable (c : CoreState) (s : State)

/-! ### raiseFatal -/

@[simp] theorem CoreState.raiseFatal_tick (code : FatalCode) : (c.raiseFatal code).tick = c.tick := rfl
@[simp] theorem CoreState.raiseFatal_pending (code : FatalCode) : (c.raiseFatal code).pending = c.pending := rfl
@[simp] theorem CoreState.raiseFatal_opa (code : FatalCode) : (c.raiseFatal code).opa = c.opa := rfl
@[simp] theorem CoreState.raiseFatal_opb (code : FatalCode) : (c.raiseFatal code).opb = c.opb := rfl
@[simp] theorem CoreState.raiseFatal_res (code : FatalCode) : (c.raiseFatal code).res = c.res := rfl
@[simp] theorem CoreState.raiseFatal_kstate (code : FatalCode) : (c.raiseFatal code).kstate = c.kstate := rfl
@[simp] theorem CoreState.raiseFatal_estart (code : FatalCode) : (c.raiseFatal code).estart = c.estart := rfl
@[simp] theorem CoreState.raiseFatal_edur (code : FatalCode) : (c.raiseFatal code).edur = c.edur := rfl
@[simp] theorem CoreState.raiseFatal_elock (code : FatalCode) : (c.raiseFatal code).elock = c.elock := rfl
@[simp] theorem CoreState.raiseFatal_panicked (code : FatalCode) : (c.raiseFatal code).panicked = c.panicked := rfl
@[simp] theorem CoreState.raiseFatal_keyed (code : FatalCode) : (c.raiseFatal code).keyed = false := rfl
@[simp] theorem CoreState.raiseFatal_fatal (code : FatalCode) : (c.raiseFatal code).fatal = true := rfl
@[simp] theorem CoreState.raiseFatal_fcode (code : FatalCode) : (c.raiseFatal code).fcode = code := rfl
@[simp] theorem CoreState.raiseFatal_dur (code : FatalCode) : (c.raiseFatal code).dur = c.dur := rfl
@[simp] theorem CoreState.raiseFatal_tres (code : FatalCode) : (c.raiseFatal code).tres = c.tres := rfl
@[simp] theorem CoreState.raiseFatal_cwpm (code : FatalCode) : (c.raiseFatal code).cwpm = c.cwpm := rfl
@[simp] theorem CoreState.raiseFatal_cscale (code : FatalCode) : (c.raiseFatal code).cscale = c.cscale := rfl

/-! ### energize -/

@[simp] theorem CoreState.energize_tick : (c.energize).tick = c.tick := rfl
@[simp] theorem CoreState.energize_pending : (c.energize).pending = c.pending := rfl
@[simp] theorem CoreState.energize_opa : (c.energize).opa = c.opa := rfl
@[simp] theorem CoreState.energize_opb : (c.energize).opb = c.opb := rfl
@[simp] theorem CoreState.energize_res : (c.energize).res = c.res := rfl
@[simp] theorem CoreState.energize_kstate : (c.energize).kstate = c.kstate := rfl
@[simp] theorem CoreState.energize_estart : (c.energize).estart = c.estart := rfl
@[simp] theorem CoreState.energize_edur : (c.energize).edur = c.edur := rfl
@[simp] theorem CoreState.energize_elock : (c.energize).elock = c.elock := rfl
@[simp] theorem CoreState.energize_panicked : (c.energize).panicked = c.panicked := rfl
@[simp] theorem CoreState.energize_keyed : (c.energize).keyed = true := rfl
@[simp] theorem CoreState.energize_fatal : (c.energize).fatal = c.fatal := rfl
@[simp] theorem CoreState.energize_fcode : (c.energize).fcode = c.fcode := rfl
@[simp] theorem CoreState.energize_dur : (c.energize).dur = c.dur := rfl
@[simp] theorem CoreState.energize_tres : (c.energize).tres = c.tres := rfl
@[simp] theorem CoreState.energize_cwpm : (c.energize).cwpm = c.cwpm := rfl
@[simp] theorem CoreState.energize_cscale : (c.energize).cscale = c.cscale := rfl

/-! ### deenergize -/

@[simp] theorem CoreState.deenergize_tick : (c.deenergize).tick = c.tick := rfl
@[simp] theorem CoreState.deenergize_pending : (c.deenergize).pending = c.pending := rfl
@[simp] theorem CoreState.deenergize_opa : (c.deenergize).opa = c.opa := rfl
@[simp] theorem CoreState.deenergize_opb : (c.deenergize).opb = c.opb := rfl
@[simp] theorem CoreState.deenergize_res : (c.deenergize).res = c.res := rfl
@[simp] theorem CoreState.deenergize_kstate : (c.deenergize).kstate = c.kstate := rfl
@[simp] theorem CoreState.deenergize_estart : (c.deenergize).estart = c.estart := rfl
@[simp] theorem CoreState.deenergize_edur : (c.deenergize).edur = c.edur := rfl
@[simp] theorem CoreState.deenergize_elock : (c.deenergize).elock = c.elock := rfl
@[simp] theorem CoreState.deenergize_panicked : (c.deenergize).panicked = c.panicked := rfl
@[simp] theorem CoreState.deenergize_keyed : (c.deenergize).keyed = false := rfl
@[simp] theorem CoreState.deenergize_fatal : (c.deenergize).fatal = c.fatal := rfl
@[simp] theorem CoreState.deenergize_fcode : (c.deenergize).fcode = c.fcode := rfl
@[simp] theorem CoreState.deenergize_dur : (c.deenergize).dur = c.dur := rfl
@[simp] theorem CoreState.deenergize_tres : (c.deenergize).tres = c.tres := rfl
@[simp] theorem CoreState.deenergize_cwpm : (c.deenergize).cwpm = c.cwpm := rfl
@[simp] theorem CoreState.deenergize_cscale : (c.deenergize).cscale = c.cscale := rfl

/-! ### panic -/

@[simp] theorem CoreState.panic_tick : (c.panic).tick = c.tick := rfl
@[simp] theorem CoreState.panic_pending : (c.panic).pending = c.pending := rfl
@[simp] theorem CoreState.panic_opa : (c.panic).opa = c.opa := rfl
@[simp] theorem CoreState.panic_opb : (c.panic).opb = c.opb := rfl
@[simp] theorem CoreState.panic_res : (c.panic).res = c.res := rfl
@[simp] theorem CoreState.panic_kstate : (c.panic).kstate = c.kstate := rfl
@[simp] theorem CoreState.panic_estart : (c.panic).estart = c.estart := rfl
@[simp] theorem CoreState.panic_edur : (c.panic).edur = c.edur := rfl
@[simp] theorem CoreState.panic_elock : (c.panic).elock = c.elock := rfl
@[simp] theorem CoreState.panic_panicked : (c.panic).panicked = true := rfl
@[simp] theorem CoreState.panic_keyed : (c.panic).keyed = false := rfl
@[simp] theorem CoreState.panic_fatal : (c.panic).fatal = c.fatal := rfl
@[simp] theorem CoreState.panic_fcode : (c.panic).fcode = c.fcode := rfl
@[simp] theorem CoreState.panic_dur : (c.panic).dur = c.dur := rfl
@[simp] theorem CoreState.panic_tres : (c.panic).tres = c.tres := rfl
@[simp] theorem CoreState.panic_cwpm : (c.panic).cwpm = c.cwpm := rfl
@[simp] theorem CoreState.panic_cscale : (c.panic).cscale = c.cscale := rfl

/-! ### clearPanic -/

@[simp] theorem CoreState.clearPanic_tick : (c.clearPanic).tick = c.tick := rfl
@[simp] theorem CoreState.clearPanic_pending : (c.clearPanic).pending = c.pending := rfl
@[simp] theorem CoreState.clearPanic_opa : (c.clearPanic).opa = c.opa := rfl
@[simp] theorem CoreState.clearPanic_opb : (c.clearPanic).opb = c.opb := rfl
@[simp] theorem CoreState.clearPanic_res : (c.clearPanic).res = c.res := rfl
@[simp] theorem CoreState.clearPanic_kstate : (c.clearPanic).kstate = c.kstate := rfl
@[simp] theorem CoreState.clearPanic_estart : (c.clearPanic).estart = 0#32 := rfl
@[simp] theorem CoreState.clearPanic_edur : (c.clearPanic).edur = 0#32 := rfl
@[simp] theorem CoreState.clearPanic_elock : (c.clearPanic).elock = 0#32 := rfl
@[simp] theorem CoreState.clearPanic_panicked : (c.clearPanic).panicked = false := rfl
@[simp] theorem CoreState.clearPanic_keyed : (c.clearPanic).keyed = c.keyed := rfl
@[simp] theorem CoreState.clearPanic_fatal : (c.clearPanic).fatal = c.fatal := rfl
@[simp] theorem CoreState.clearPanic_fcode : (c.clearPanic).fcode = c.fcode := rfl
@[simp] theorem CoreState.clearPanic_dur : (c.clearPanic).dur = c.dur := rfl
@[simp] theorem CoreState.clearPanic_tres : (c.clearPanic).tres = c.tres := rfl
@[simp] theorem CoreState.clearPanic_cwpm : (c.clearPanic).cwpm = c.cwpm := rfl
@[simp] theorem CoreState.clearPanic_cscale : (c.clearPanic).cscale = c.cscale := rfl

/-! ### timerStep -/

@[simp] theorem CoreState.timerStep_tick : (c.timerStep).tick = c.tick + 1#32 := rfl
@[simp] theorem CoreState.timerStep_pending : (c.timerStep).pending = setEvent c.pending evTick := rfl
@[simp] theorem CoreState.timerStep_opa : (c.timerStep).opa = c.opa := rfl
@[simp] theorem CoreState.timerStep_opb : (c.timerStep).opb = c.opb := rfl
@[simp] theorem CoreState.timerStep_res : (c.timerStep).res = c.res := rfl
@[simp] theorem CoreState.timerStep_kstate : (c.timerStep).kstate = c.kstate := rfl
@[simp] theorem CoreState.timerStep_estart : (c.timerStep).estart = c.estart := rfl
@[simp] theorem CoreState.timerStep_edur : (c.timerStep).edur = c.edur := rfl
@[simp] theorem CoreState.timerStep_elock : (c.timerStep).elock = c.elock := rfl
@[simp] theorem CoreState.timerStep_panicked : (c.timerStep).panicked = c.panicked := rfl
@[simp] theorem CoreState.timerStep_keyed : (c.timerStep).keyed = c.keyed := rfl
@[simp] theorem CoreState.timerStep_fatal : (c.timerStep).fatal = c.fatal := rfl
@[simp] theorem CoreState.timerStep_fcode : (c.timerStep).fcode = c.fcode := rfl
@[simp] theorem CoreState.timerStep_dur : (c.timerStep).dur = c.dur := rfl
@[simp] theorem CoreState.timerStep_tres : (c.timerStep).tres = c.tres := rfl
@[simp] theorem CoreState.timerStep_cwpm : (c.timerStep).cwpm = c.cwpm := rfl
@[simp] theorem CoreState.timerStep_cscale : (c.timerStep).cscale = c.cscale := rfl

/-! ### schedulerInit -/

@[simp] theorem CoreState.schedulerInit_tick : (c.schedulerInit).tick = 0#32 := rfl
@[simp] theorem CoreState.schedulerInit_pending : (c.schedulerInit).pending = 0#8 := rfl
@[simp] theorem CoreState.schedulerInit_opa : (c.schedulerInit).opa = c.opa := rfl
@[simp] theorem CoreState.schedulerInit_opb : (c.schedulerInit).opb = c.opb := rfl
@[simp] theorem CoreState.schedulerInit_res : (c.schedulerInit).res = c.res := rfl
@[simp] theorem CoreState.schedulerInit_kstate : (c.schedulerInit).kstate = c.kstate := rfl
@[simp] theorem CoreState.schedulerInit_estart : (c.schedulerInit).estart = c.estart := rfl
@[simp] theorem CoreState.schedulerInit_edur : (c.schedulerInit).edur = c.edur := rfl
@[simp] theorem CoreState.schedulerInit_elock : (c.schedulerInit).elock = c.elock := rfl
@[simp] theorem CoreState.schedulerInit_panicked : (c.schedulerInit).panicked = c.panicked := rfl
@[simp] theorem CoreState.schedulerInit_keyed : (c.schedulerInit).keyed = c.keyed := rfl
@[simp] theorem CoreState.schedulerInit_fatal : (c.schedulerInit).fatal = c.fatal := rfl
@[simp] theorem CoreState.schedulerInit_fcode : (c.schedulerInit).fcode = c.fcode := rfl
@[simp] theorem CoreState.schedulerInit_dur : (c.schedulerInit).dur = c.dur := rfl
@[simp] theorem CoreState.schedulerInit_tres : (c.schedulerInit).tres = c.tres := rfl
@[simp] theorem CoreState.schedulerInit_cwpm : (c.schedulerInit).cwpm = c.cwpm := rfl
@[simp] theorem CoreState.schedulerInit_cscale : (c.schedulerInit).cscale = c.cscale := rfl

/-! ### enqueue -/

@[simp] theorem CoreState.enqueue_tick (k : Nat) : (c.enqueue k).tick = c.tick := rfl
@[simp] theorem CoreState.enqueue_pending (k : Nat) : (c.enqueue k).pending = setEvent c.pending k := rfl
@[simp] theorem CoreState.enqueue_opa (k : Nat) : (c.enqueue k).opa = c.opa := rfl
@[simp] theorem CoreState.enqueue_opb (k : Nat) : (c.enqueue k).opb = c.opb := rfl
@[simp] theorem CoreState.enqueue_res (k : Nat) : (c.enqueue k).res = c.res := rfl
@[simp] theorem CoreState.enqueue_kstate (k : Nat) : (c.enqueue k).kstate = c.kstate := rfl
@[simp] theorem CoreState.enqueue_estart (k : Nat) : (c.enqueue k).estart = c.estart := rfl
@[simp] theorem CoreState.enqueue_edur (k : Nat) : (c.enqueue k).edur = c.edur := rfl
@[simp] theorem CoreState.enqueue_elock (k : Nat) : (c.enqueue k).elock = c.elock := rfl
@[simp] theorem CoreState.enqueue_panicked (k : Nat) : (c.enqueue k).panicked = c.panicked := rfl
@[simp] theorem CoreState.enqueue_keyed (k : Nat) : (c.enqueue k).keyed = c.keyed := rfl
@[simp] theorem CoreState.enqueue_fatal (k : Nat) : (c.enqueue k).fatal = c.fatal := rfl
@[simp] theorem CoreState.enqueue_fcode (k : Nat) : (c.enqueue k).fcode = c.fcode := rfl
@[simp] theorem CoreState.enqueue_dur (k : Nat) : (c.enqueue k).dur = c.dur := rfl
@[simp] theorem CoreState.enqueue_tres (k : Nat) : (c.enqueue k).tres = c.tres := rfl
@[simp] theorem CoreState.enqueue_cwpm (k : Nat) : (c.enqueue k).cwpm = c.cwpm := rfl
@[simp] theorem CoreState.enqueue_cscale (k : Nat) : (c.enqueue k).cscale = c.cscale := rfl

/-! ### drain -/

@[simp] theorem CoreState.drain_tick : (c.drain).tick = c.tick := rfl
@[simp] theorem CoreState.drain_pending : (c.drain).pending = 0#8 := rfl
@[simp] theorem CoreState.drain_opa : (c.drain).opa = c.opa := rfl
@[simp] theorem CoreState.drain_opb : (c.drain).opb = c.opb := rfl
@[simp] theorem CoreState.drain_res : (c.drain).res = c.pending.setWidth 32 := rfl
@[simp] theorem CoreState.drain_kstate : (c.drain).kstate = c.kstate := rfl
@[simp] theorem CoreState.drain_estart : (c.drain).estart = c.estart := rfl
@[simp] theorem CoreState.drain_edur : (c.drain).edur = c.edur := rfl
@[simp] theorem CoreState.drain_elock : (c.drain).elock = c.elock := rfl
@[simp] theorem CoreState.drain_panicked : (c.drain).panicked = c.panicked := rfl
@[simp] theorem CoreState.drain_keyed : (c.drain).keyed = c.keyed := rfl
@[simp] theorem CoreState.drain_fatal : (c.drain).fatal = c.fatal := rfl
@[simp] theorem CoreState.drain_fcode : (c.drain).fcode = c.fcode := rfl
@[simp] theorem CoreState.drain_dur : (c.drain).dur = c.dur := rfl
@[simp] theorem CoreState.drain_tres : (c.drain).tres = c.tres := rfl
@[simp] theorem CoreState.drain_cwpm : (c.drain).cwpm = c.cwpm := rfl
@[simp] theorem CoreState.drain_cscale : (c.drain).cscale = c.cscale := rfl

/-! ### setRes -/

@[simp] theorem CoreState.setRes_tick (v : Word) : (c.setRes v).tick = c.tick := rfl
@[simp] theorem CoreState.setRes_pending (v : Word) : (c.setRes v).pending = c.pending := rfl
@[simp] theorem CoreState.setRes_opa (v : Word) : (c.setRes v).opa = c.opa := rfl
@[simp] theorem CoreState.setRes_opb (v : Word) : (c.setRes v).opb = c.opb := rfl
@[simp] theorem CoreState.setRes_res (v : Word) : (c.setRes v).res = v := rfl
@[simp] theorem CoreState.setRes_kstate (v : Word) : (c.setRes v).kstate = c.kstate := rfl
@[simp] theorem CoreState.setRes_estart (v : Word) : (c.setRes v).estart = c.estart := rfl
@[simp] theorem CoreState.setRes_edur (v : Word) : (c.setRes v).edur = c.edur := rfl
@[simp] theorem CoreState.setRes_elock (v : Word) : (c.setRes v).elock = c.elock := rfl
@[simp] theorem CoreState.setRes_panicked (v : Word) : (c.setRes v).panicked = c.panicked := rfl
@[simp] theorem CoreState.setRes_keyed (v : Word) : (c.setRes v).keyed = c.keyed := rfl
@[simp] theorem CoreState.setRes_fatal (v : Word) : (c.setRes v).fatal = c.fatal := rfl
@[simp] theorem CoreState.setRes_fcode (v : Word) : (c.setRes v).fcode = c.fcode := rfl
@[simp] theorem CoreState.setRes_dur (v : Word) : (c.setRes v).dur = c.dur := rfl
@[simp] theorem CoreState.setRes_tres (v : Word) : (c.setRes v).tres = c.tres := rfl
@[simp] theorem CoreState.setRes_cwpm (v : Word) : (c.setRes v).cwpm = c.cwpm := rfl
@[simp] theorem CoreState.setRes_cscale (v : Word) : (c.setRes v).cscale = c.cscale := rfl

/-! ### setTres -/

@[simp] theorem CoreState.setTres_tick (d : Bank Tick) : (c.setTres d).tick = c.tick := rfl
@[simp] theorem CoreState.setTres_pending (d : Bank Tick) : (c.setTres d).pending = c.pending := rfl
@[simp] theorem CoreState.setTres_opa (d : Bank Tick) : (c.setTres d).opa = c.opa := rfl
@[simp] theorem CoreState.setTres_opb (d : Bank Tick) : (c.setTres d).opb = c.opb := rfl
@[simp] theorem CoreState.setTres_res (d : Bank Tick) : (c.setTres d).res = c.res := rfl
@[simp] theorem CoreState.setTres_kstate (d : Bank Tick) : (c.setTres d).kstate = c.kstate := rfl
@[simp] theorem CoreState.setTres_estart (d : Bank Tick) : (c.setTres d).estart = c.estart := rfl
@[simp] theorem CoreState.setTres_edur (d : Bank Tick) : (c.setTres d).edur = c.edur := rfl
@[simp] theorem CoreState.setTres_elock (d : Bank Tick) : (c.setTres d).elock = c.elock := rfl
@[simp] theorem CoreState.setTres_panicked (d : Bank Tick) : (c.setTres d).panicked = c.panicked := rfl
@[simp] theorem CoreState.setTres_keyed (d : Bank Tick) : (c.setTres d).keyed = c.keyed := rfl
@[simp] theorem CoreState.setTres_fatal (d : Bank Tick) : (c.setTres d).fatal = c.fatal := rfl
@[simp] theorem CoreState.setTres_fcode (d : Bank Tick) : (c.setTres d).fcode = c.fcode := rfl
@[simp] theorem CoreState.setTres_dur (d : Bank Tick) : (c.setTres d).dur = c.dur := rfl
@[simp] theorem CoreState.setTres_tres (d : Bank Tick) : (c.setTres d).tres = d := rfl
@[simp] theorem CoreState.setTres_cwpm (d : Bank Tick) : (c.setTres d).cwpm = c.cwpm := rfl
@[simp] theorem CoreState.setTres_cscale (d : Bank Tick) : (c.setTres d).cscale = c.cscale := rfl

/-! ### fillCache -/

@[simp] theorem CoreState.fillCache_tick (wpm : BitVec 8) (sc : Bank Word) : (c.fillCache wpm sc).tick = c.tick := rfl
@[simp] theorem CoreState.fillCache_pending (wpm : BitVec 8) (sc : Bank Word) : (c.fillCache wpm sc).pending = c.pending := rfl
@[simp] theorem CoreState.fillCache_opa (wpm : BitVec 8) (sc : Bank Word) : (c.fillCache wpm sc).opa = c.opa := rfl
@[simp] theorem CoreState.fillCache_opb (wpm : BitVec 8) (sc : Bank Word) : (c.fillCache wpm sc).opb = c.opb := rfl
@[simp] theorem CoreState.fillCache_res (wpm : BitVec 8) (sc : Bank Word) : (c.fillCache wpm sc).res = c.res := rfl
@[simp] theorem CoreState.fillCache_kstate (wpm : BitVec 8) (sc : Bank Word) : (c.fillCache wpm sc).kstate = c.kstate := rfl
@[simp] theorem CoreState.fillCache_estart (wpm : BitVec 8) (sc : Bank Word) : (c.fillCache wpm sc).estart = c.estart := rfl
@[simp] theorem CoreState.fillCache_edur (wpm : BitVec 8) (sc : Bank Word) : (c.fillCache wpm sc).edur = c.edur := rfl
@[simp] theorem CoreState.fillCache_elock (wpm : BitVec 8) (sc : Bank Word) : (c.fillCache wpm sc).elock = c.elock := rfl
@[simp] theorem CoreState.fillCache_panicked (wpm : BitVec 8) (sc : Bank Word) : (c.fillCache wpm sc).panicked = c.panicked := rfl
@[simp] theorem CoreState.fillCache_keyed (wpm : BitVec 8) (sc : Bank Word) : (c.fillCache wpm sc).keyed = c.keyed := rfl
@[simp] theorem CoreState.fillCache_fatal (wpm : BitVec 8) (sc : Bank Word) : (c.fillCache wpm sc).fatal = c.fatal := rfl
@[simp] theorem CoreState.fillCache_fcode (wpm : BitVec 8) (sc : Bank Word) : (c.fillCache wpm sc).fcode = c.fcode := rfl
@[simp] theorem CoreState.fillCache_dur (wpm : BitVec 8) (sc : Bank Word) : (c.fillCache wpm sc).dur = calcDurations wpm sc := rfl
@[simp] theorem CoreState.fillCache_tres (wpm : BitVec 8) (sc : Bank Word) : (c.fillCache wpm sc).tres = c.tres := rfl
@[simp] theorem CoreState.fillCache_cwpm (wpm : BitVec 8) (sc : Bank Word) : (c.fillCache wpm sc).cwpm = wpm := rfl
@[simp] theorem CoreState.fillCache_cscale (wpm : BitVec 8) (sc : Bank Word) : (c.fillCache wpm sc).cscale = sc := rfl

/-! ### keyerInit -/

@[simp] theorem CoreState.keyerInit_tick : (c.keyerInit).tick = c.tick := rfl
@[simp] theorem CoreState.keyerInit_pending : (c.keyerInit).pending = c.pending := rfl
@[simp] theorem CoreState.keyerInit_opa : (c.keyerInit).opa = c.opa := rfl
@[simp] theorem CoreState.keyerInit_opb : (c.keyerInit).opb = c.opb := rfl
@[simp] theorem CoreState.keyerInit_res : (c.keyerInit).res = c.res := rfl
@[simp] theorem CoreState.keyerInit_kstate : (c.keyerInit).kstate = .off := rfl
@[simp] theorem CoreState.keyerInit_estart : (c.keyerInit).estart = 0#32 := rfl
@[simp] theorem CoreState.keyerInit_edur : (c.keyerInit).edur = 0#32 := rfl
@[simp] theorem CoreState.keyerInit_elock : (c.keyerInit).elock = 0#32 := rfl
@[simp] theorem CoreState.keyerInit_panicked : (c.keyerInit).panicked = false := rfl
@[simp] theorem CoreState.keyerInit_keyed : (c.keyerInit).keyed = false := rfl
@[simp] theorem CoreState.keyerInit_fatal : (c.keyerInit).fatal = c.fatal := rfl
@[simp] theorem CoreState.keyerInit_fcode : (c.keyerInit).fcode = c.fcode := rfl
@[simp] theorem CoreState.keyerInit_dur : (c.keyerInit).dur = Bank.const 0#32 := rfl
@[simp] theorem CoreState.keyerInit_tres : (c.keyerInit).tres = c.tres := rfl
@[simp] theorem CoreState.keyerInit_cwpm : (c.keyerInit).cwpm = 0#8 := rfl
@[simp] theorem CoreState.keyerInit_cscale : (c.keyerInit).cscale = Bank.const 0#32 := rfl

/-! ### beginElement -/

@[simp] theorem CoreState.beginElement_tick (now d : Tick) : (c.beginElement now d).tick = c.tick := rfl
@[simp] theorem CoreState.beginElement_pending (now d : Tick) : (c.beginElement now d).pending = c.pending := rfl
@[simp] theorem CoreState.beginElement_opa (now d : Tick) : (c.beginElement now d).opa = c.opa := rfl
@[simp] theorem CoreState.beginElement_opb (now d : Tick) : (c.beginElement now d).opb = c.opb := rfl
@[simp] theorem CoreState.beginElement_res (now d : Tick) : (c.beginElement now d).res = c.res := rfl
@[simp] theorem CoreState.beginElement_kstate (now d : Tick) : (c.beginElement now d).kstate = c.kstate := rfl
@[simp] theorem CoreState.beginElement_estart (now d : Tick) : (c.beginElement now d).estart = now := rfl
@[simp] theorem CoreState.beginElement_edur (now d : Tick) : (c.beginElement now d).edur = d := rfl
@[simp] theorem CoreState.beginElement_elock (now d : Tick) : (c.beginElement now d).elock = now + d + c.dur.elementSpace := rfl
@[simp] theorem CoreState.beginElement_panicked (now d : Tick) : (c.beginElement now d).panicked = c.panicked := rfl
@[simp] theorem CoreState.beginElement_keyed (now d : Tick) : (c.beginElement now d).keyed = true := rfl
@[simp] theorem CoreState.beginElement_fatal (now d : Tick) : (c.beginElement now d).fatal = c.fatal := rfl
@[simp] theorem CoreState.beginElement_fcode (now d : Tick) : (c.beginElement now d).fcode = c.fcode := rfl
@[simp] theorem CoreState.beginElement_dur (now d : Tick) : (c.beginElement now d).dur = c.dur := rfl
@[simp] theorem CoreState.beginElement_tres (now d : Tick) : (c.beginElement now d).tres = c.tres := rfl
@[simp] theorem CoreState.beginElement_cwpm (now d : Tick) : (c.beginElement now d).cwpm = c.cwpm := rfl
@[simp] theorem CoreState.beginElement_cscale (now d : Tick) : (c.beginElement now d).cscale = c.cscale := rfl

/-! ### setKstate -/

@[simp] theorem CoreState.setKstate_tick (k : KState) : (c.setKstate k).tick = c.tick := rfl
@[simp] theorem CoreState.setKstate_pending (k : KState) : (c.setKstate k).pending = c.pending := rfl
@[simp] theorem CoreState.setKstate_opa (k : KState) : (c.setKstate k).opa = c.opa := rfl
@[simp] theorem CoreState.setKstate_opb (k : KState) : (c.setKstate k).opb = c.opb := rfl
@[simp] theorem CoreState.setKstate_res (k : KState) : (c.setKstate k).res = c.res := rfl
@[simp] theorem CoreState.setKstate_kstate (k : KState) : (c.setKstate k).kstate = k := rfl
@[simp] theorem CoreState.setKstate_estart (k : KState) : (c.setKstate k).estart = c.estart := rfl
@[simp] theorem CoreState.setKstate_edur (k : KState) : (c.setKstate k).edur = c.edur := rfl
@[simp] theorem CoreState.setKstate_elock (k : KState) : (c.setKstate k).elock = c.elock := rfl
@[simp] theorem CoreState.setKstate_panicked (k : KState) : (c.setKstate k).panicked = c.panicked := rfl
@[simp] theorem CoreState.setKstate_keyed (k : KState) : (c.setKstate k).keyed = c.keyed := rfl
@[simp] theorem CoreState.setKstate_fatal (k : KState) : (c.setKstate k).fatal = c.fatal := rfl
@[simp] theorem CoreState.setKstate_fcode (k : KState) : (c.setKstate k).fcode = c.fcode := rfl
@[simp] theorem CoreState.setKstate_dur (k : KState) : (c.setKstate k).dur = c.dur := rfl
@[simp] theorem CoreState.setKstate_tres (k : KState) : (c.setKstate k).tres = c.tres := rfl
@[simp] theorem CoreState.setKstate_cwpm (k : KState) : (c.setKstate k).cwpm = c.cwpm := rfl
@[simp] theorem CoreState.setKstate_cscale (k : KState) : (c.setKstate k).cscale = c.cscale := rfl

/-! ### setOpa -/

@[simp] theorem CoreState.setOpa_tick (v : Word) : (c.setOpa v).tick = c.tick := rfl
@[simp] theorem CoreState.setOpa_pending (v : Word) : (c.setOpa v).pending = c.pending := rfl
@[simp] theorem CoreState.setOpa_opa (v : Word) : (c.setOpa v).opa = v := rfl
@[simp] theorem CoreState.setOpa_opb (v : Word) : (c.setOpa v).opb = c.opb := rfl
@[simp] theorem CoreState.setOpa_res (v : Word) : (c.setOpa v).res = c.res := rfl
@[simp] theorem CoreState.setOpa_kstate (v : Word) : (c.setOpa v).kstate = c.kstate := rfl
@[simp] theorem CoreState.setOpa_estart (v : Word) : (c.setOpa v).estart = c.estart := rfl
@[simp] theorem CoreState.setOpa_edur (v : Word) : (c.setOpa v).edur = c.edur := rfl
@[simp] theorem CoreState.setOpa_elock (v : Word) : (c.setOpa v).elock = c.elock := rfl
@[simp] theorem CoreState.setOpa_panicked (v : Word) : (c.setOpa v).panicked = c.panicked := rfl
@[simp] theorem CoreState.setOpa_keyed (v : Word) : (c.setOpa v).keyed = c.keyed := rfl
@[simp] theorem CoreState.setOpa_fatal (v : Word) : (c.setOpa v).fatal = c.fatal := rfl
@[simp] theorem CoreState.setOpa_fcode (v : Word) : (c.setOpa v).fcode = c.fcode := rfl
@[simp] theorem CoreState.setOpa_dur (v : Word) : (c.setOpa v).dur = c.dur := rfl
@[simp] theorem CoreState.setOpa_tres (v : Word) : (c.setOpa v).tres = c.tres := rfl
@[simp] theorem CoreState.setOpa_cwpm (v : Word) : (c.setOpa v).cwpm = c.cwpm := rfl
@[simp] theorem CoreState.setOpa_cscale (v : Word) : (c.setOpa v).cscale = c.cscale := rfl

/-! ### setOpb -/

@[simp] theorem CoreState.setOpb_tick (v : Word) : (c.setOpb v).tick = c.tick := rfl
@[simp] theorem CoreState.setOpb_pending (v : Word) : (c.setOpb v).pending = c.pending := rfl
@[simp] theorem CoreState.setOpb_opa (v : Word) : (c.setOpb v).opa = c.opa := rfl
@[simp] theorem CoreState.setOpb_opb (v : Word) : (c.setOpb v).opb = v := rfl
@[simp] theorem CoreState.setOpb_res (v : Word) : (c.setOpb v).res = c.res := rfl
@[simp] theorem CoreState.setOpb_kstate (v : Word) : (c.setOpb v).kstate = c.kstate := rfl
@[simp] theorem CoreState.setOpb_estart (v : Word) : (c.setOpb v).estart = c.estart := rfl
@[simp] theorem CoreState.setOpb_edur (v : Word) : (c.setOpb v).edur = c.edur := rfl
@[simp] theorem CoreState.setOpb_elock (v : Word) : (c.setOpb v).elock = c.elock := rfl
@[simp] theorem CoreState.setOpb_panicked (v : Word) : (c.setOpb v).panicked = c.panicked := rfl
@[simp] theorem CoreState.setOpb_keyed (v : Word) : (c.setOpb v).keyed = c.keyed := rfl
@[simp] theorem CoreState.setOpb_fatal (v : Word) : (c.setOpb v).fatal = c.fatal := rfl
@[simp] theorem CoreState.setOpb_fcode (v : Word) : (c.setOpb v).fcode = c.fcode := rfl
@[simp] theorem CoreState.setOpb_dur (v : Word) : (c.setOpb v).dur = c.dur := rfl
@[simp] theorem CoreState.setOpb_tres (v : Word) : (c.setOpb v).tres = c.tres := rfl
@[simp] theorem CoreState.setOpb_cwpm (v : Word) : (c.setOpb v).cwpm = c.cwpm := rfl
@[simp] theorem CoreState.setOpb_cscale (v : Word) : (c.setOpb v).cscale = c.cscale := rfl

/-! ### State.withCore -/

@[simp] theorem State.withCore_core (d : CoreState) : (s.withCore d).core = d := rfl
@[simp] theorem State.withCore_ports (d : CoreState) : (s.withCore d).ports = s.ports := rfl
@[simp] theorem State.withCore_main (d : CoreState) : (s.withCore d).main = s.main := rfl
@[simp] theorem State.withCore_events (d : CoreState) : (s.withCore d).events = s.events := rfl
@[simp] theorem State.withCore_issuer (d : CoreState) : (s.withCore d).issuer = s.issuer := rfl
@[simp] theorem State.withCore_draws (d : CoreState) : (s.withCore d).draws = s.draws := rfl

/-! ### State.asAgent -/

@[simp] theorem State.asAgent_core (a : Agent) : (s.asAgent a).core = s.core := rfl
@[simp] theorem State.asAgent_ports (a : Agent) : (s.asAgent a).ports = s.ports := rfl
@[simp] theorem State.asAgent_main (a : Agent) : (s.asAgent a).main = s.main := rfl
@[simp] theorem State.asAgent_events (a : Agent) : (s.asAgent a).events = s.events := rfl
@[simp] theorem State.asAgent_issuer (a : Agent) : (s.asAgent a).issuer = a := rfl
@[simp] theorem State.asAgent_draws (a : Agent) : (s.asAgent a).draws = s.draws := rfl

/-! ### State.began -/

@[simp] theorem State.began_core (r : List Event) : (s.began r).core = s.core := rfl
@[simp] theorem State.began_ports (r : List Event) : (s.began r).ports = s.ports := rfl
@[simp] theorem State.began_main (r : List Event) : (s.began r).main = s.main := rfl
@[simp] theorem State.began_events (r : List Event) : (s.began r).events = r := rfl
@[simp] theorem State.began_issuer (r : List Event) : (s.began r).issuer = s.issuer := rfl
@[simp] theorem State.began_draws (r : List Event) : (s.began r).draws = s.draws + 1 := rfl

/-! ### State.goto -/

@[simp] theorem State.goto_core (n : Nat) : (s.goto n).core = s.core := rfl
@[simp] theorem State.goto_ports (n : Nat) : (s.goto n).ports = s.ports := rfl
@[simp] theorem State.goto_main (n : Nat) : (s.goto n).main = { s.main with pos := n } := rfl
@[simp] theorem State.goto_events (n : Nat) : (s.goto n).events = s.events := rfl
@[simp] theorem State.goto_issuer (n : Nat) : (s.goto n).issuer = s.issuer := rfl
@[simp] theorem State.goto_draws (n : Nat) : (s.goto n).draws = s.draws := rfl

/-! ### State.pass -/

@[simp] theorem State.pass_core (op : MainOp) : (s.pass op).core = s.core := rfl
@[simp] theorem State.pass_ports (op : MainOp) : (s.pass op).ports = s.ports := rfl
@[simp] theorem State.pass_main (op : MainOp) : (s.pass op).main = op.pass s.main := rfl
@[simp] theorem State.pass_events (op : MainOp) : (s.pass op).events = s.events := rfl
@[simp] theorem State.pass_issuer (op : MainOp) : (s.pass op).issuer = s.issuer := rfl
@[simp] theorem State.pass_draws (op : MainOp) : (s.pass op).draws = s.draws := rfl

/-! ### State.receive -/

@[simp] theorem State.receive_core (v : Word) : (s.receive v).core = s.core := rfl
@[simp] theorem State.receive_ports (v : Word) : (s.receive v).ports = s.ports := rfl
@[simp] theorem State.receive_main (v : Word) : (s.receive v).main = { s.main with reads := v :: s.main.reads } := rfl
@[simp] theorem State.receive_events (v : Word) : (s.receive v).events = s.events := rfl
@[simp] theorem State.receive_issuer (v : Word) : (s.receive v).issuer = s.issuer := rfl
@[simp] theorem State.receive_draws (v : Word) : (s.receive v).draws = s.draws := rfl

/-! ### powerOnReset and loadCommand -/

@[simp] theorem powerOnReset_core : (powerOnReset s).core = CoreState.reset := rfl
@[simp] theorem powerOnReset_ports : (powerOnReset s).ports = s.ports := rfl
@[simp] theorem powerOnReset_main : (powerOnReset s).main = { s.main with pos := 0, reads := [], locals := [] } := rfl
@[simp] theorem powerOnReset_events : (powerOnReset s).events = s.events := rfl
@[simp] theorem powerOnReset_issuer : (powerOnReset s).issuer = .main := rfl
@[simp] theorem powerOnReset_draws : (powerOnReset s).draws = s.draws := rfl

@[simp] theorem State.withCore_self : s.withCore s.core = s := rfl
@[simp] theorem State.withCore_withCore (c d : CoreState) : (s.withCore c).withCore d = s.withCore d := rfl

end Sys2Proof.Machine
end

