-- ==== Sys2Proof/Laws/Guards.lean ====
section
/-! SUPPORT. Who may step: what the shared guards answer, said once. -/

namespace Sys2Proof.Machine

theorem unlessHalted_running {s : State} {r : Result} (h : s.core.fatal = false) : unlessHalted s r = r := by
  simp [unlessHalted, h]

theorem unlessHalted_halted {s : State} {r : Result} (h : s.core.fatal = true) :
    unlessHalted s r = .fault (.halted s.core.fcode) := by
  simp [unlessHalted, h]

/-- A guarded step answers a next state only outside the fatal state. -/
theorem unlessHalted_eq_next {s t : State} {r : Result} :
    unlessHalted s r = .next t ↔ s.core.fatal = false ∧ r = .next t := by
  unfold unlessHalted
  cases s.core.fatal <;> simp

theorem asMain_allowed {s : State} {r : Result} (h : s.mainMayIssue) : asMain s r = r := by
  simp [asMain, unlessHalted, h.1, h.2]

/-- A main-context command answers a next state only for `Main`, outside the fatal state. -/
theorem asMain_eq_next {s t : State} {r : Result} : asMain s r = .next t ↔ s.mainMayIssue ∧ r = .next t := by
  unfold asMain State.mainMayIssue
  rw [unlessHalted_eq_next, and_assoc]
  by_cases h : s.issuer = .main <;> simp [h]

theorem asMain_refused {s : State} {r : Result} (hf : s.core.fatal = false) (hi : s.issuer ≠ .main) :
    asMain s r = .refused (.contextForbids s.issuer) := by
  simp [asMain, unlessHalted, hf, hi]

theorem mayEnqueue_iff {a : Agent} : a.mayEnqueue = true ↔ a = .main ∨ ∃ k : IsrSource, a = .interrupt (.isr k) := by
  cases a with
  | main => simp [Agent.mayEnqueue]
  | interrupt h => cases h <;> simp [Agent.mayEnqueue]
  | env => simp [Agent.mayEnqueue]

theorem asEnqueuer_allowed {s : State} {r : Result} (h : s.enqMayIssue) : asEnqueuer s r = r := by
  simp [asEnqueuer, unlessHalted, h.1, mayEnqueue_iff.mpr h.2]

/-- `ENQ` answers a next state only for `Main` and the `Isr` agents, outside the fatal state. -/
theorem asEnqueuer_eq_next {s t : State} {r : Result} : asEnqueuer s r = .next t ↔ s.enqMayIssue ∧ r = .next t := by
  unfold asEnqueuer State.enqMayIssue
  rw [unlessHalted_eq_next, and_assoc, ← mayEnqueue_iff]
  by_cases h : s.issuer.mayEnqueue = true <;> simp [h]

theorem asEnqueuer_refused {s : State} {r : Result} (hf : s.core.fatal = false) (hi : s.issuer.mayEnqueue = false) :
    asEnqueuer s r = .refused (.contextForbids s.issuer) := by
  simp [asEnqueuer, unlessHalted, hf, hi]

/-- The fatal entry always answers the state with the three registers written. -/
@[simp] theorem raiseFatal_eq (code : FatalCode) (s : State) : raiseFatal code s = .next (s.fatalWith code) := rfl

end Sys2Proof.Machine
end

