-- ==== Sys2Proof/Laws/Timing.lean ====
section
/-! SUPPORT. The calculator and the cache: rounding as a floor of rationals, binary32 patterns as exact values, and everything
a cache refresh can answer. -/

namespace Sys2Proof.Machine

/-- `roundDiv` is the rounding of 00_scope.md R26 on exact rationals. -/
theorem roundDiv_eq_floor (num : Int) (den : Nat) (h : 0 < den) :
    roundDiv num den = ⌊(num : ℚ) / den + 1 / 2⌋ := by
  have hd : (0 : ℚ) < den := by exact_mod_cast h
  have e : (num : ℚ) / den + 1 / 2 = ((2 * num + den : ℤ) : ℚ) / ((2 * den : ℕ) : ℚ) := by
    push_cast
    field_simp
  rw [e, Rat.floor_intCast_div_natCast]
  simp [roundDiv]

theorem roundDiv_mono {a b : Int} (den : Nat) (h : a ≤ b) : roundDiv a den ≤ roundDiv b den := by
  unfold roundDiv
  rcases Nat.eq_zero_or_pos den with rfl | hd
  · simp
  · exact Int.ediv_le_ediv (by omega) (by omega)

theorem expField_toNat (s : Word) : (s.extractLsb' 23 8).toNat = s.toNat / 2 ^ 23 % 256 := by
  simp [BitVec.extractLsb'_toNat, Nat.shiftRight_eq_div_pow]

theorem fracField_toNat (s : Word) : (s.extractLsb' 0 23).toNat = s.toNat % 2 ^ 23 := by
  simp [BitVec.extractLsb'_toNat]

theorem signBit_iff (s : Word) : s.getLsbD 31 = true ↔ 2 ^ 31 ≤ s.toNat := by
  have := s.isLt
  rw [BitVec.getLsbD, Nat.testBit_eq_decide_div_mod_eq, decide_eq_true_eq]
  omega

/-- The exact value of a non-negative finite pattern, in units of 2^-149. -/
def magnitude (n : Nat) : Nat :=
  if n / 2 ^ 23 = 0 then n else (2 ^ 23 + n % 2 ^ 23) * 2 ^ (n / 2 ^ 23 - 1)

/-- Non-negative finite patterns order as their values. -/
theorem magnitude_strictMono {m n : Nat} (h : m < n) : magnitude m < magnitude n := by
  unfold magnitude
  have hm := Nat.div_add_mod m (2 ^ 23)
  have hn := Nat.div_add_mod n (2 ^ 23)
  have hml := Nat.mod_lt m (show 2 ^ 23 > 0 by norm_num)
  have hnl := Nat.mod_lt n (show 2 ^ 23 > 0 by norm_num)
  generalize hme : m / 2 ^ 23 = em at *
  generalize hne : n / 2 ^ 23 = en at *
  generalize m % 2 ^ 23 = fm at *
  generalize n % 2 ^ 23 = fn at *
  have hle : em ≤ en := by rw [← hme, ← hne]; exact Nat.div_le_div_right h.le
  rcases Nat.eq_or_lt_of_le hle with e | lt
  · subst e
    have hf : fm < fn := by omega
    by_cases h0 : em = 0
    · simp [h0, h]
    · simp only [h0, if_false]
      exact Nat.mul_lt_mul_of_pos_right (by omega) (by positivity)
  · have hn0 : en ≠ 0 := by omega
    have big : 2 ^ 23 * 2 ^ (en - 1) ≤ (2 ^ 23 + fn) * 2 ^ (en - 1) := Nat.mul_le_mul_right _ (by omega)
    simp only [hn0, if_false]
    by_cases h0 : em = 0
    · simp only [h0, if_true]
      have : 1 ≤ 2 ^ (en - 1) := Nat.one_le_two_pow
      have : m < 2 ^ 23 := by rw [h0] at hm; omega
      nlinarith
    · simp only [h0, if_false]
      have p : 2 ^ em ≤ 2 ^ (en - 1) := Nat.pow_le_pow_right (by norm_num) (by omega)
      have q : 2 ^ em = 2 * 2 ^ (em - 1) := by
        rw [← pow_succ']
        congr 1
        omega
      have r : (2 ^ 23 + fm) * 2 ^ (em - 1) < 2 ^ 24 * 2 ^ (em - 1) :=
        Nat.mul_lt_mul_of_pos_right (by omega) (by positivity)
      have t : 2 ^ 24 * 2 ^ (em - 1) = 2 ^ 23 * 2 ^ em := by rw [q]; ring
      have u : 2 ^ 23 * 2 ^ em ≤ 2 ^ 23 * 2 ^ (en - 1) := Nat.mul_le_mul_left _ p
      omega

theorem magnitude_mono {m n : Nat} (h : m ≤ n) : magnitude m ≤ magnitude n := by
  rcases Nat.eq_or_lt_of_le h with e | lt
  · rw [e]
  · exact (magnitude_strictMono lt).le

theorem magnitude_le_iff {m n : Nat} : magnitude m ≤ magnitude n ↔ m ≤ n :=
  ⟨fun h => by by_contra c; exact absurd h (not_le.mpr (magnitude_strictMono (not_le.mp c))), magnitude_mono⟩

/-- A pattern below +infinity is finite, and its value is its magnitude. -/
theorem value32_nonneg {s : Word} (h : s.toNat < 0x7F800000) : value32 s = some (magnitude s.toNat : Int) := by
  have hs : s.getLsbD 31 = false := by
    rw [← Bool.not_eq_true, signBit_iff]
    omega
  have he : s.toNat / 2 ^ 23 % 256 = s.toNat / 2 ^ 23 := by omega
  have h255 : ¬ s.toNat / 2 ^ 23 = 255 := by omega
  rw [value32, magnitude, expField_toNat, fracField_toNat, he]
  simp only [hs]
  rw [if_neg h255, if_neg (by simp)]
  by_cases h0 : s.toNat / 2 ^ 23 = 0
  · have : s.toNat % 2 ^ 23 = s.toNat := Nat.mod_eq_of_lt (by omega)
    rw [if_pos h0, if_pos h0, this]
  · rw [if_neg h0, if_neg h0]
    push_cast
    rfl

/-- A pattern with the sign bit has a value that is not positive, or none. -/
theorem value32_negative {s : Word} {v : Int} (h : 2 ^ 31 ≤ s.toNat) (hv : value32 s = some v) : v ≤ 0 := by
  have hs : s.getLsbD 31 = true := (signBit_iff s).mpr h
  unfold value32 at hv
  simp only [hs, if_true] at hv
  split_ifs at hv with h1 h2 <;> simp only [Option.some.injEq] at hv <;> rw [← hv]
  · have := Int.natCast_nonneg (s.extractLsb' 0 23).toNat
    omega
  · have : (0 : Int) ≤ (2 ^ 23 + ((s.extractLsb' 0 23).toNat : Int)) * 2 ^ ((s.extractLsb' 23 8).toNat - 1) := by positivity
    omega

/-- Everything a cache refresh can answer (41_timing.md R149). -/
theorem refreshDurations_cases (p : Ports) (c : CoreState) :
    (c.cacheStale p = false ∧ refreshDurations p c = some c) ∨
    (c.cacheStale p = true ∧ validConfig p.cfgWpm p.cfgScale = true ∧
      refreshDurations p c = some (c.fillCache p.cfgWpm p.cfgScale)) ∨
    (c.cacheStale p = true ∧ validConfig p.cfgWpm p.cfgScale = false ∧ refreshDurations p c = none) := by
  unfold refreshDurations
  cases c.cacheStale p <;> cases validConfig p.cfgWpm p.cfgScale <;> simp

theorem cacheStale_iff (s : State) : s.core.cacheStale s.ports = true ↔ s.keyDiffers := by
  simp [CoreState.cacheStale, State.keyDiffers, or_assoc]

/-- A valid configuration has a words-per-minute value from 1 to 100. -/
theorem validConfig_wpm {wpm : BitVec 8} {scale : Bank Word} (h : validConfig wpm scale = true) :
    1 ≤ wpm.toNat ∧ wpm.toNat ≤ 100 := by
  simp only [validConfig, validWpm, Bool.and_eq_true, decide_eq_true_eq] at h
  exact h.1

/-- After a refresh the cache's key is the ports, so the next refresh finds it fresh. -/
theorem cacheStale_after_refresh {p : Ports} {c d : CoreState} (h : refreshDurations p c = some d) :
    d.cacheStale p = false := by
  rcases refreshDurations_cases p c with ⟨hs, hr⟩ | ⟨-, hv, hr⟩ | ⟨-, -, hr⟩
  · rw [hr] at h; cases h; exact hs
  · rw [hr] at h
    cases h
    have := (validConfig_wpm hv).1
    have h0 : p.cfgWpm ≠ 0#8 := by
      intro e
      simp [e] at this
    simp [CoreState.cacheStale, h0]
  · rw [hr] at h; cases h

end Sys2Proof.Machine
end

