-- ==== Sys2Proof/Laws/Keyer.lean ====
section
/-! SUPPORT. The keyer: what each action can do, and what `KTICK` never changes. -/

namespace Sys2Proof.Machine

/-- `OffAction` de-energizes or does nothing (42_keyer.md R173). -/
theorem offAction_cases (now : Tick) (c : CoreState) :
    (c.durationElapsed now = true ∧ offAction now c = c.deenergize) ∨
    (c.durationElapsed now = false ∧ offAction now c = c) := by
  unfold offAction
  cases c.durationElapsed now <;> simp

/-- `OnAction` energizes unless panicked (42_keyer.md R174). -/
theorem onAction_cases (c : CoreState) :
    (c.panicked = true ∧ onAction c = c) ∨ (c.panicked = false ∧ onAction c = c.energize) := by
  unfold onAction
  cases c.panicked <;> simp

/-- `ElementAction` begins an element, ends one, or does nothing (42_keyer.md R175, R176). -/
theorem elementAction_cases (now : Tick) (changed : Bool) (d : Tick) (c : CoreState) :
    (c.panicked = false ∧ c.lockoutExpired now = true ∧ (changed = true ∨ c.keyed = false) ∧
      elementAction now changed d c = c.beginElement now d) ∨
    (¬ (c.panicked = false ∧ c.lockoutExpired now = true ∧ (changed = true ∨ c.keyed = false)) ∧
      c.keyed = true ∧ c.durationElapsed now = true ∧ elementAction now changed d c = c.deenergize) ∨
    (¬ (c.panicked = false ∧ c.lockoutExpired now = true ∧ (changed = true ∨ c.keyed = false)) ∧
      ¬ (c.keyed = true ∧ c.durationElapsed now = true) ∧ elementAction now changed d c = c) := by
  unfold elementAction
  cases c.panicked <;> cases c.lockoutExpired now <;> cases c.keyed <;> cases changed <;>
    cases c.durationElapsed now <;> simp

/-- The action of a state is one of three writes or none. -/
theorem stateAction_cases (next : KState) (now : Tick) (changed : Bool) (c : CoreState) :
    stateAction next now changed c = c ∨ stateAction next now changed c = c.deenergize ∨
    (stateAction next now changed c = c.energize ∧ c.panicked = false ∧ next = .on) ∨
    (∃ d, (d = c.dur.dot ∨ d = c.dur.dash) ∧ stateAction next now changed c = c.beginElement now d ∧
      c.panicked = false) := by
  cases next with
  | off => rcases offAction_cases now c with ⟨-, h⟩ | ⟨-, h⟩ <;> simp [stateAction, h]
  | on => rcases onAction_cases c with ⟨-, h⟩ | ⟨hp, h⟩ <;> simp [stateAction, *]
  | dots =>
    rcases elementAction_cases now changed c.dur.dot c with ⟨hp, -, -, h⟩ | ⟨-, -, -, h⟩ | ⟨-, -, h⟩
    · exact .inr (.inr (.inr ⟨_, .inl rfl, h, hp⟩))
    · exact .inr (.inl h)
    · exact .inl h
  | dashes =>
    rcases elementAction_cases now changed c.dur.dash c with ⟨hp, -, -, h⟩ | ⟨-, -, -, h⟩ | ⟨-, -, h⟩
    · exact .inr (.inr (.inr ⟨_, .inr rfl, h, hp⟩))
    · exact .inr (.inl h)
    · exact .inl h

/-- `KTICK`'s work is the action of the next state on registers that hold it, a panic cleared where the state changed. -/
theorem keyerTick_eq (now : Tick) (p : Ports) (c : CoreState) :
    keyerTick now p c =
      stateAction (nextState c.kstate p) now (decide (nextState c.kstate p ≠ c.kstate))
        ((if decide (nextState c.kstate p ≠ c.kstate) && c.panicked then c.clearPanic else c).setKstate
          (nextState c.kstate p)) := rfl

/-- Everything `KTICK` leaves alone, and the state it ends in. -/
theorem keyerTick_frame (now : Tick) (p : Ports) (c : CoreState) :
    (keyerTick now p c).kstate = nextState c.kstate p ∧
    (keyerTick now p c).tick = c.tick ∧ (keyerTick now p c).pending = c.pending ∧
    (keyerTick now p c).opa = c.opa ∧ (keyerTick now p c).opb = c.opb ∧ (keyerTick now p c).res = c.res ∧
    (keyerTick now p c).fatal = c.fatal ∧ (keyerTick now p c).fcode = c.fcode ∧
    (keyerTick now p c).dur = c.dur ∧ (keyerTick now p c).tres = c.tres ∧
    (keyerTick now p c).cwpm = c.cwpm ∧ (keyerTick now p c).cscale = c.cscale := by
  rw [keyerTick_eq]
  generalize hc' : (if decide (nextState c.kstate p ≠ c.kstate) && c.panicked then c.clearPanic else c) = c'
  have hk : c'.tick = c.tick ∧ c'.pending = c.pending ∧ c'.opa = c.opa ∧ c'.opb = c.opb ∧ c'.res = c.res ∧
      c'.fatal = c.fatal ∧ c'.fcode = c.fcode ∧ c'.dur = c.dur ∧ c'.tres = c.tres ∧ c'.cwpm = c.cwpm ∧
      c'.cscale = c.cscale := by
    subst hc'
    split_ifs <;> simp
  rcases stateAction_cases (nextState c.kstate p) now (decide (nextState c.kstate p ≠ c.kstate))
      (c'.setKstate (nextState c.kstate p)) with h | h | ⟨h, -, -⟩ | ⟨d, -, h, -⟩ <;> rw [h] <;> simp [hk]

/-- Everything `KTICK` can answer as a next state: the fatal entry of an invalid configuration, or the keyer's work on the
refreshed registers. -/
theorem execKtick_cases {s t : State} (h : exec .ktick s = .next t) :
    s.mainMayIssue ∧
    ((s.keyDiffers ∧ ¬ s.configValid ∧ t = s.fatalWith Config.fcTimingRange) ∨
     (∃ c, refreshDurations s.ports s.core = some c ∧ t = s.withCore (keyerTick s.core.opa s.ports c) ∧
       c.now = s.core.opa)) := by
  obtain ⟨hm, h⟩ := asMain_eq_next.mp h
  refine ⟨hm, ?_⟩
  rcases refreshDurations_cases s.ports s.core with ⟨hs, hr⟩ | ⟨hs, hv, hr⟩ | ⟨hs, hv, hr⟩
  · rw [hr] at h
    cases h
    exact .inr ⟨_, hr, rfl, rfl⟩
  · rw [hr] at h
    cases h
    exact .inr ⟨_, hr, rfl, rfl⟩
  · rw [hr] at h
    cases h
    exact .inl ⟨(cacheStale_iff s).mp hs, by simp [State.configValid, hv], rfl⟩

/-- A `KTICK` that completed is the keyer's work on the refreshed registers. -/
theorem ktickTo_cases {s t : State} (h : s.ktickTo t) :
    ∃ c, refreshDurations s.ports s.core = some c ∧ t = s.withCore (keyerTick s.core.opa s.ports c) := by
  obtain ⟨hm, he, hf⟩ := h
  rcases (execKtick_cases he).2 with ⟨-, -, rfl⟩ | ⟨c, hc, ht, -⟩
  · simp [State.fatalWith] at hf
  · exact ⟨c, hc, ht⟩

/-- A refresh writes the cache and nothing else. -/
theorem refreshDurations_frame {p : Ports} {c d : CoreState} (h : refreshDurations p c = some d) :
    d = { c with dur := d.dur, cwpm := d.cwpm, cscale := d.cscale } := by
  rcases refreshDurations_cases p c with ⟨-, hr⟩ | ⟨-, -, hr⟩ | ⟨-, -, hr⟩ <;> rw [hr] at h <;> cases h <;> rfl

end Sys2Proof.Machine
end

