-- ==== Sys2Proof/Laws/Main.lean ====
section
/-! SUPPORT. `Main`'s local values and operations, and the end of a run, one small lemma for each. -/

namespace Sys2Proof.Machine

/-- Writing one local value changes that value and no other. -/
theorem setLocal_getD (x : Nat) (v : Word) (ls : List Word) (y : Nat) :
    (setLocal x v ls)[y]?.getD 0#32 = if y = x then v else ls[y]?.getD 0#32 := by
  induction x generalizing ls y with
  | zero => cases ls <;> cases y <;> simp [setLocal]
  | succ x ih => cases ls <;> cases y <;> simp [setLocal, ih]

theorem MainAgent.varValue_setVar (m : MainAgent) (x : Nat) (v : Word) (y : Nat) :
    (m.setVar x v).varValue y = if y = x then v else m.varValue y :=
  setLocal_getD x v m.locals y

@[simp] theorem MainAgent.setVar_prog (m : MainAgent) (x : Nat) (v : Word) : (m.setVar x v).prog = m.prog := rfl
@[simp] theorem MainAgent.setVar_pos (m : MainAgent) (x : Nat) (v : Word) : (m.setVar x v).pos = m.pos := rfl
@[simp] theorem MainAgent.setVar_reads (m : MainAgent) (x : Nat) (v : Word) : (m.setVar x v).reads = m.reads := rfl

/-- No operation changes the program or the values read by being passed. -/
theorem MainOp.pass_frame (op : MainOp) (m : MainAgent) :
    (op.pass m).prog = m.prog ∧ (op.pass m).reads = m.reads := by
  cases op <;> exact ⟨rfl, rfl⟩

theorem State.goodEnd_iff (s : State) : s.goodEnd = true ↔ s.main.current = none ∧ s.core.fatal = false := by
  simp [State.goodEnd, State.mainEnded]

/-- A run is over at a good end, whatever steps are left. -/
theorem runToEnd_of_goodEnd {s : State} (h : s.goodEnd = true) (n : Nat) : runToEnd n s = .good s := by
  cases n <;> simp [runToEnd, h]

/-- Before a good end a run goes on with the next step. -/
theorem runToEnd_of_step {s t : State} (h : s.goodEnd = false) (hs : step s = .next t) (n : Nat) :
    runToEnd (n + 1) s = runToEnd n t := by
  simp [runToEnd, h, hs]

end Sys2Proof.Machine
end

