-- ==== Sys2Proof/Laws/Ops.lean ====
section
/-! SUPPORT. The shared operations: tick arithmetic as statements about numbers, the event set bit by bit, the register map
and its inverse. -/

namespace Sys2Proof.Machine

@[simp] theorem half_toNat : Config.half.toNat = 2 ^ 31 := rfl

theorem elapsedTicks_toNat (now start : Tick) :
    (elapsedTicks now start).toNat = (2 ^ 32 - start.toNat + now.toNat) % 2 ^ 32 := by
  simp [elapsedTicks, BitVec.toNat_sub]

theorem elapsedTicks_toInt (now start : Tick) :
    ((elapsedTicks now start).toNat : Int) = ((now.toNat : Int) - start.toNat) % 2 ^ 32 := by
  rw [elapsedTicks_toNat]
  have := now.isLt
  have := start.isLt
  omega

theorem isTickGt_iff (a b : Tick) : isTickGt a b = true ↔ 0 < (a - b).toNat ∧ (a - b).toNat < 2 ^ 31 := by
  have h : (a - b = 0#32) ↔ (a - b).toNat = 0 := by
    rw [BitVec.toNat_eq]; rfl
  simp only [isTickGt, Bool.and_eq_true, decide_eq_true_eq, h, ne_eq, Nat.pos_iff_ne_zero]
  rw [half_toNat]

theorem isTickGte_iff (a b : Tick) : isTickGte a b = true ↔ (a - b).toNat < 2 ^ 31 := by
  rw [isTickGte, decide_eq_true_eq, half_toNat]

/-- Setting an event: its bit is 1, every other bit is kept. -/
theorem setEvent_getLsbD (p : BitVec 8) (k j : Nat) (hj : j < 8) :
    (setEvent p k).getLsbD j = (p.getLsbD j || j == k) := by
  unfold setEvent
  rw [BitVec.getLsbD_or, BitVec.getLsbD_shiftLeft]
  by_cases h : j < k
  · simp [h, Nat.ne_of_lt h]
  · have : (1#8).getLsbD (j - k) = (j == k) := by
      by_cases e : j = k
      · subst e; simp
      · have : j - k ≠ 0 := by omega
        simp [BitVec.getLsbD_one, this, e]
    simp [h, hj, this]

theorem setEvent_ne_zero (p : BitVec 8) (k : Nat) (hk : k < 8) : setEvent p k ≠ 0#8 := by
  intro h
  have := setEvent_getLsbD p k k hk
  simp [h] at this

/-- A legal kind keeps the reserved bits of `PENDING` 0. -/
theorem setEvent_legal (p : BitVec 8) (k : Nat) (hp : p.toNat < 64) (hk : k < 6) : (setEvent p k).toNat < 64 := by
  have h1 : (1#8 <<< k).toNat < 2 ^ 6 := by
    rw [BitVec.toNat_shiftLeft]
    refine lt_of_le_of_lt (Nat.mod_le _ _) ?_
    interval_cases k <;> decide
  unfold setEvent
  rw [BitVec.toNat_or]
  exact Nat.or_lt_two_pow (n := 6) hp h1

/-- The register map is read both ways. -/
theorem RegName.ofNumber_number (r : RegName) : RegName.ofNumber r.number = some r := by
  cases r with
  | dur e => cases e <;> rfl
  | tres e => cases e <;> rfl
  | cscale e => cases e <;> rfl
  | _ => rfl

theorem RegName.number_of_ofNumber {n : RegNum} {r : RegName} (h : RegName.ofNumber n = some r) : r.number = n := by
  have key : ∀ n : RegNum, ∀ r, RegName.ofNumber n = some r → r.number = n := by
    intro n r
    rw [BitVec.toNat_eq]
    unfold RegName.ofNumber
    split <;> intro h <;> simp_all <;> subst h <;> rfl
  exact key n r h

/-- The assigned numbers are 0x00 to 0x17. -/
theorem RegName.ofNumber_isSome_iff (n : RegNum) : (RegName.ofNumber n).isSome = true ↔ n.toNat ≤ 0x17 := by
  unfold RegName.ofNumber
  constructor
  · intro h
    by_contra hn
    split at h <;> simp_all
  · intro h
    generalize n.toNat = m at h ⊢
    interval_cases m <;> rfl

end Sys2Proof.Machine
end

