-- ==== Sys2Proof/Laws/PerInstr.lean ====
section
/-! SUPPORT. Facts stated once for each constructor of Instr. -/

namespace Sys2Proof.Laws.EncodingRow

/-- The command's word fits exactly one row of the opcode table, the one with its mnemonic (30_encoding.md R105). -/
def Statement (i : Instr) : Prop :=
  (opcodeTable.filter (fun r => r.fits (encode i))).map OpcodeRow.mnemonic = [i.mnemonic]

theorem sinit : Statement .sinit := by unfold Statement; decide
theorem enq (kind : BitVec 4) : Statement (.enq kind) := by
  unfold Statement
  revert kind
  decide
theorem wait : Statement .wait := by unfold Statement; decide
theorem gtick : Statement .gtick := by unfold Statement; decide
theorem elapsed : Statement .elapsed := by unfold Statement; decide
theorem tgt : Statement .tgt := by unfold Statement; decide
theorem tgte : Statement .tgte := by unfold Statement; decide
theorem tcalc : Statement .tcalc := by unfold Statement; decide
theorem kinit : Statement .kinit := by unfold Statement; decide
theorem ktick : Statement .ktick := by unfold Statement; decide
theorem kpanic : Statement .kpanic := by unfold Statement; decide

end Sys2Proof.Laws.EncodingRow
end

