-- ==== Sys2Proof/Laws/Step.lean ====
section
/-! SUPPORT. What a command, an issue and a step can do, said once: the inversion lemmas every whole-machine claim starts
from. -/

namespace Sys2Proof.Machine

/-- Everything a command can answer as a next state, command by command: the registers afterwards. -/
theorem exec_cases {i : Instr} {s t : State} (h : exec i s = .next t) :
    (i = .sinit ∧ s.mainMayIssue ∧ t = s.withCore s.core.schedulerInit) ∨
    (∃ k, i = .enq k ∧ s.enqMayIssue ∧
      ((legalKind k = true ∧ t = s.withCore (s.core.enqueue k.toNat)) ∨
       (legalKind k = false ∧ t = s.fatalWith Config.fcEventKind))) ∨
    (i = .wait ∧ s.mainMayIssue ∧
      ((s.core.pending = 0#8 ∧ t = s) ∨ (s.core.pending ≠ 0#8 ∧ t = s.withCore s.core.drain))) ∨
    ((i = .gtick ∨ i = .elapsed ∨ i = .tgt ∨ i = .tgte) ∧ s.mainMayIssue ∧ ∃ v, t = s.withCore (s.core.setRes v)) ∨
    (i = .tcalc ∧ s.mainMayIssue ∧
      ((s.configValid ∧ t = s.withCore (s.core.setTres (calcDurations s.ports.cfgWpm s.ports.cfgScale))) ∨
       (¬ s.configValid ∧ t = s.fatalWith Config.fcTimingRange))) ∨
    (i = .kinit ∧ s.mainMayIssue ∧ t = s.withCore s.core.keyerInit) ∨
    (i = .ktick ∧ s.mainMayIssue ∧
      ((s.keyDiffers ∧ ¬ s.configValid ∧ t = s.fatalWith Config.fcTimingRange) ∨
       (∃ c, refreshDurations s.ports s.core = some c ∧ t = s.withCore (keyerTick s.core.opa s.ports c)))) ∨
    (i = .kpanic ∧ s.mainMayIssue ∧ t = s.withCore s.core.panic) := by
  cases i with
  | sinit =>
    obtain ⟨hm, h⟩ := asMain_eq_next.mp h
    cases h
    exact .inl ⟨rfl, hm, rfl⟩
  | enq k =>
    obtain ⟨hm, h⟩ := asEnqueuer_eq_next.mp h
    refine .inr (.inl ⟨k, rfl, hm, ?_⟩)
    cases hk : legalKind k <;> rw [hk] at h <;> cases h
    · exact .inr ⟨rfl, rfl⟩
    · exact .inl ⟨rfl, rfl⟩
  | wait =>
    obtain ⟨hm, h⟩ := asMain_eq_next.mp h
    refine .inr (.inr (.inl ⟨rfl, hm, ?_⟩))
    split_ifs at h with hp <;> cases h
    · exact .inl ⟨hp, rfl⟩
    · exact .inr ⟨hp, rfl⟩
  | gtick =>
    obtain ⟨hm, h⟩ := asMain_eq_next.mp h
    cases h
    exact .inr (.inr (.inr (.inl ⟨.inl rfl, hm, _, rfl⟩)))
  | elapsed =>
    obtain ⟨hm, h⟩ := asMain_eq_next.mp h
    cases h
    exact .inr (.inr (.inr (.inl ⟨.inr (.inl rfl), hm, _, rfl⟩)))
  | tgt =>
    obtain ⟨hm, h⟩ := asMain_eq_next.mp h
    cases h
    exact .inr (.inr (.inr (.inl ⟨.inr (.inr (.inl rfl)), hm, _, rfl⟩)))
  | tgte =>
    obtain ⟨hm, h⟩ := asMain_eq_next.mp h
    cases h
    exact .inr (.inr (.inr (.inl ⟨.inr (.inr (.inr rfl)), hm, _, rfl⟩)))
  | tcalc =>
    obtain ⟨hm, h⟩ := asMain_eq_next.mp h
    refine .inr (.inr (.inr (.inr (.inl ⟨rfl, hm, ?_⟩))))
    unfold State.configValid
    split_ifs at h with hv <;> cases h
    · exact .inl ⟨hv, rfl⟩
    · exact .inr ⟨hv, rfl⟩
  | kinit =>
    obtain ⟨hm, h⟩ := asMain_eq_next.mp h
    cases h
    exact .inr (.inr (.inr (.inr (.inr (.inl ⟨rfl, hm, rfl⟩)))))
  | ktick =>
    obtain ⟨hm, hc⟩ := execKtick_cases h
    refine .inr (.inr (.inr (.inr (.inr (.inr (.inl ⟨rfl, hm, ?_⟩))))))
    rcases hc with hf | ⟨c, hc, ht, -⟩
    · exact .inl hf
    · exact .inr ⟨c, hc, ht⟩
  | kpanic =>
    obtain ⟨hm, h⟩ := asMain_eq_next.mp h
    cases h
    exact .inr (.inr (.inr (.inr (.inr (.inr (.inr ⟨rfl, hm, rfl⟩))))))

/-- A command runs only outside the fatal state, and touches nothing but the core. -/
theorem exec_frame {i : Instr} {s t : State} (h : exec i s = .next t) :
    s.core.fatal = false ∧ t = s.withCore t.core := by
  rcases exec_cases h with ⟨-, hm, rfl⟩ | ⟨k, -, hm, ⟨-, rfl⟩ | ⟨-, rfl⟩⟩ | ⟨-, hm, ⟨-, rfl⟩ | ⟨-, rfl⟩⟩ |
    ⟨-, hm, v, rfl⟩ | ⟨-, hm, ⟨-, rfl⟩ | ⟨-, rfl⟩⟩ | ⟨-, hm, rfl⟩ | ⟨-, hm, ⟨-, -, rfl⟩ | ⟨c, -, rfl⟩⟩ | ⟨-, hm, rfl⟩ <;>
    exact ⟨hm.1, rfl⟩

/-- A command other than `KTICK` issued again at once changes nothing more; the second `WAIT` holds (20_memory.md R80). -/
theorem exec_again {i : Instr} {s t : State} (hi : i ≠ .ktick) (h : exec i s = .next t) (hf : t.core.fatal = false) :
    exec i t = .next t := by
  rcases exec_cases h with ⟨rfl, hm, rfl⟩ | ⟨k, rfl, hm, ⟨hk, rfl⟩ | ⟨-, rfl⟩⟩ | ⟨rfl, hm, ⟨-, rfl⟩ | ⟨-, rfl⟩⟩ |
    ⟨hr, hm, v, rfl⟩ | ⟨rfl, hm, ⟨hv, rfl⟩ | ⟨-, rfl⟩⟩ | ⟨rfl, hm, rfl⟩ | ⟨rfl, -, -⟩ | ⟨rfl, hm, rfl⟩
  · exact asMain_allowed hm
  · have he : setEvent (setEvent s.core.pending k.toNat) k.toNat = setEvent s.core.pending k.toNat := by
      simp only [setEvent, BitVec.or_assoc, BitVec.or_self]
    refine (asEnqueuer_allowed (by exact hm)).trans ?_
    rw [if_pos hk]
    show Host.Outcome.next (s.withCore { s.core with pending := setEvent (setEvent s.core.pending k.toNat) k.toNat }) = _
    rw [he]
    rfl
  · cases hf
  · exact h
  · exact (asMain_allowed (by exact hm)).trans (if_pos rfl)
  · rcases hr with rfl | rfl | rfl | rfl <;>
      (obtain ⟨-, hv⟩ := asMain_eq_next.mp h
       rw [← hv]
       exact asMain_allowed hm)
  · exact (asMain_allowed (by exact hm)).trans (if_pos hv)
  · cases hf
  · exact asMain_allowed hm
  · exact absurd rfl hi
  · exact asMain_allowed hm

/-- Everything an issue can answer as a next state: a command's answer, or the fatal entry of an illegal word. -/
theorem issue_cases {w : Cmd} {s t : State} (h : issue w s = .next t) :
    (∃ i, decode w = .ok i ∧ exec i s = .next t) ∨
    (∃ e, decode w = .error e ∧ s.core.fatal = false ∧
      (s.issuer = .main ∨ (s.issuer.mayEnqueue = true ∧ isEnqWord w = true)) ∧ t = s.fatalWith e.code) := by
  unfold issue at h
  split at h
  · exact .inl ⟨_, by assumption, h⟩
  · rename_i e he
    obtain ⟨hf, h⟩ := unlessHalted_eq_next.mp h
    refine .inr ⟨e, he, hf, ?_⟩
    split_ifs at h with hc
    cases h
    exact ⟨by simpa using hc, rfl⟩

theorem issue_frame {w : Cmd} {s t : State} (h : issue w s = .next t) :
    s.core.fatal = false ∧ t = s.withCore t.core := by
  rcases issue_cases h with ⟨i, -, hi⟩ | ⟨e, -, hf, -, rfl⟩
  · exact exec_frame hi
  · exact ⟨hf, rfl⟩

/-- The state `s` as it stands when its next step has been taken by `a`, `Main` at position `pos`. -/
def State.taken (s : State) (rest : List Event) (a : Agent) (pos : Nat) : State :=
  ((s.began rest).asAgent a).goto pos

@[simp] theorem State.taken_core (s : State) (r : List Event) (a : Agent) (n : Nat) : (s.taken r a n).core = s.core := rfl
@[simp] theorem State.taken_ports (s : State) (r : List Event) (a : Agent) (n : Nat) :
    (s.taken r a n).ports = s.ports := rfl
@[simp] theorem State.taken_issuer (s : State) (r : List Event) (a : Agent) (n : Nat) : (s.taken r a n).issuer = a := rfl
@[simp] theorem State.taken_main (s : State) (r : List Event) (a : Agent) (n : Nat) :
    (s.taken r a n).main = { s.main with pos := n } := rfl

theorem State.taken_same (s : State) (r : List Event) (a : Agent) :
    s.taken r a s.main.pos = (s.began r).asAgent a := rfl

/-- Everything a write of `Main` can answer as a next state. -/
theorem mainWrite_cases {n : RegNum} {v : Word} {s t : State} (h : mainWrite n v s = .next t) :
    (n = 0x00#8 ∧ issue (v.setWidth 16) s = .next t) ∨
    (n = 0x01#8 ∧ t = s.withCore (s.core.setOpa v)) ∨ (n = 0x02#8 ∧ t = s.withCore (s.core.setOpb v)) := by
  unfold mainWrite at h
  split at h <;> first | cases h | skip
  · rename_i hr
    exact .inl ⟨(RegName.number_of_ofNumber hr).symm, h⟩
  · rename_i hr
    exact .inr (.inl ⟨(RegName.number_of_ofNumber hr).symm, rfl⟩)
  · rename_i hr
    exact .inr (.inr ⟨(RegName.number_of_ofNumber hr).symm, rfl⟩)

theorem mainRead_cases {n : RegNum} {s t : State} (h : mainRead n s = .next t) :
    ∃ r v, RegName.ofNumber n = some r ∧ s.core.regValue r = some v ∧ t = s.receive v := by
  unfold mainRead at h
  split at h
  · cases h
  · rename_i r hr
    split at h
    · cases h
    · rename_i v hv
      cases h
      exact ⟨r, v, hr, hv, rfl⟩

theorem isWaitWord_iff (w : Cmd) : isWaitWord w = true ↔ decode w = .ok .wait := by
  unfold isWaitWord
  split <;> simp_all

/-- Does this bus access hold? Exactly a write of the word of `WAIT` to `CMD` while no event is pending. -/
theorem holds_iff (c : CoreState) (op : BusOp) :
    op.holds c = true ↔ ∃ v, op = .write 0x00#8 v ∧ decode (v.setWidth 16) = .ok .wait ∧ c.pending = 0#8 := by
  cases op with
  | read n => simp [BusOp.holds]
  | write n v =>
    simp only [BusOp.holds, Bool.and_eq_true, decide_eq_true_eq, isWaitWord_iff]
    constructor
    · rintro ⟨⟨hn, hd⟩, hp⟩
      exact ⟨v, by rw [hn]; rfl, hd, hp⟩
    · rintro ⟨v', he, hd, hp⟩
      cases he
      exact ⟨⟨rfl, hd⟩, hp⟩

/-- Past an operation that makes an access, `Main` stands at the next one and nothing else of it has changed. -/
theorem State.pass_of_access {s : State} {m : MainOp} {a : BusOp} (h : m.access s.main = some a) :
    s.pass m = s.goto (s.main.pos + 1) := by
  cases m <;> first | rfl | cases h

/-- Everything `Main`'s step can answer as a next state. -/
theorem mainTurn_cases {s t : State} (h : mainTurn s = .next t) :
    s.core.fatal = false ∧
    (t.core = s.core ∧ t.ports = s.ports ∨
      ∃ m n v pos, s.main.current = some m ∧ m.access s.main = some (.write n v) ∧
        mainWrite n v (s.goto pos) = .next t) := by
  obtain ⟨hf, h⟩ := unlessHalted_eq_next.mp h
  refine ⟨hf, ?_⟩
  split at h
  · cases h; exact .inl ⟨rfl, rfl⟩
  · rename_i m hm
    split at h
    · cases h; exact .inl ⟨rfl, rfl⟩
    · rename_i a ha
      rw [State.pass_of_access ha] at h
      cases a with
      | read n =>
        obtain ⟨r, v, -, -, rfl⟩ := mainRead_cases h
        left
        split_ifs <;> exact ⟨rfl, rfl⟩
      | write n v =>
        right
        split_ifs at h
        · exact ⟨m, n, v, s.main.pos, hm, ha, h⟩
        · exact ⟨m, n, v, s.main.pos + 1, hm, ha, h⟩

/-- Everything an access from interrupt context can answer as a next state. -/
theorem handlerAccess_cases {k : Handler} {op : BusOp} {s t : State} (h : handlerAccess k op s = .next t) :
    ∃ src v, k = .isr src ∧ op = .write 0x00#8 v ∧ issue (v.setWidth 16) s = .next t := by
  obtain ⟨hf, ha⟩ := unlessHalted_eq_next.mp h
  cases k with
  | timer => cases op <;> cases ha
  | isr src =>
    cases op with
    | read n => cases ha
    | write n v =>
      simp only at ha
      split_ifs at ha with hn
      subst hn
      exact ⟨src, v, rfl, rfl, ha⟩

/-- Everything a step can do. -/
theorem step_cases {s t : State} (h : step s = .next t) :
    (s.core.fatal = false ∧ s.events = [] ∧ t = s.began []) ∨
    (∃ rest, s.events = .main :: rest ∧ s.core.fatal = false ∧ t.core = s.core ∧ t.ports = s.ports) ∨
    (∃ rest v pos, s.mainAccesses rest (.write 0x00#8 v) ∧
      issue (v.setWidth 16) (s.taken rest .main pos) = .next t) ∨
    (∃ rest v pos, s.mainAccesses rest (.write 0x01#8 v) ∧ t = (s.taken rest .main pos).withCore (s.core.setOpa v)) ∨
    (∃ rest v pos, s.mainAccesses rest (.write 0x02#8 v) ∧ t = (s.taken rest .main pos).withCore (s.core.setOpb v)) ∨
    (∃ rest, s.events = .timer :: rest ∧ s.core.fatal = false ∧
      t = (s.handlerFetched rest .timer).withCore s.core.timerStep) ∨
    (∃ rest k v, s.events = .access (.isr k) (.write 0x00#8 v) :: rest ∧
      issue (v.setWidth 16) (s.handlerFetched rest (.isr k)) = .next t) ∨
    (∃ rest p, s.events = .env p :: rest ∧ t = { (s.began rest).asAgent .env with ports := p }) ∨
    (∃ rest, s.events = .powerOn :: rest ∧ t = powerOnReset (s.began rest)) := by
  unfold step runNext at h
  split at h
  · rename_i he
    obtain ⟨hf, h⟩ := unlessHalted_eq_next.mp h
    cases h
    exact .inl ⟨hf, he, rfl⟩
  · rename_i e rest he
    right
    cases e with
    | main =>
      obtain ⟨hf, hc⟩ := mainTurn_cases h
      rcases hc with ⟨hc, hp⟩ | ⟨m, n, v, pos, hm, ha, hw⟩
      · exact .inl ⟨rest, he, hf, hc, hp⟩
      · have hacc : s.mainAccesses rest (.write n v) := ⟨hf, he, m, hm, ha⟩
        rcases mainWrite_cases hw with ⟨rfl, hi⟩ | ⟨rfl, rfl⟩ | ⟨rfl, rfl⟩
        · exact .inr (.inl ⟨rest, v, pos, hacc, hi⟩)
        · exact .inr (.inr (.inl ⟨rest, v, pos, hacc, rfl⟩))
        · exact .inr (.inr (.inr (.inl ⟨rest, v, pos, hacc, rfl⟩)))
    | timer =>
      obtain ⟨hf, h⟩ := unlessHalted_eq_next.mp h
      cases h
      exact .inr (.inr (.inr (.inr (.inl ⟨rest, he, hf, rfl⟩))))
    | access k op =>
      obtain ⟨src, v, rfl, rfl, hi⟩ := handlerAccess_cases h
      exact .inr (.inr (.inr (.inr (.inr (.inl ⟨rest, src, v, he, hi⟩)))))
    | env p =>
      cases h
      exact .inr (.inr (.inr (.inr (.inr (.inr (.inl ⟨rest, p, he, rfl⟩))))))
    | powerOn =>
      cases h
      exact .inr (.inr (.inr (.inr (.inr (.inr (.inr ⟨rest, he, rfl⟩))))))

/-- The step takes the first scheduled event. -/
theorem step_event {s : State} {e : Event} {rest : List Event} (h : s.events = e :: rest) :
    step s = runEvent e (s.began rest) := by
  unfold step runNext
  rw [h]

/-- The step of an access from interrupt context. -/
theorem step_access {s : State} {k : Handler} {op : BusOp} {rest : List Event} (h : s.events = .access k op :: rest) :
    step s = handlerAccess k op (s.handlerFetched rest k) := step_event h

/-- A write of an `Isr` to `CMD` issues the word. -/
theorem step_isrIssue {s : State} {k : IsrSource} {v : Word} {rest : List Event} (hf : s.core.fatal = false)
    (h : s.events = .access (.isr k) (.write 0x00#8 v) :: rest) :
    step s = issue (v.setWidth 16) (s.handlerFetched rest (.isr k)) := by
  rw [step_access h, handlerAccess, unlessHalted_running (by exact hf)]
  exact if_pos rfl

/-- What `Main`'s access does at the step that takes it. -/
theorem step_mainAccess {s : State} {rest : List Event} {op : BusOp} (h : s.mainAccesses rest op)
    (hh : op.holds s.core = false) : step s = mainAccess op (s.mainFetched rest) := by
  obtain ⟨hf, he, m, hm, ha⟩ := h
  unfold step runNext
  rw [he]
  show mainTurn ((s.began rest).asAgent .main) = _
  unfold mainTurn
  rw [unlessHalted_running (by exact hf)]
  simp only [State.asAgent_main, State.began_main, hm, ha, State.asAgent_core, State.began_core, hh]
  rw [State.pass_of_access (by exact ha)]
  rfl

/-- While the access holds, `Main` stays where it is. -/
theorem step_mainHolds {s : State} {rest : List Event} {op : BusOp} (h : s.mainAccesses rest op)
    (hh : op.holds s.core = true) : step s = mainAccess op ((s.began rest).asAgent .main) := by
  obtain ⟨hf, he, m, hm, ha⟩ := h
  unfold step runNext
  rw [he]
  show mainTurn ((s.began rest).asAgent .main) = _
  unfold mainTurn
  rw [unlessHalted_running (by exact hf)]
  simp only [State.asAgent_main, State.began_main, hm, ha, State.asAgent_core, State.began_core, hh, if_true]

/-- A run of one step more goes on from the state the first step answers. -/
theorem run_succ_of_step {s t : State} (h : step s = .next t) (n : Nat) :
    Host.Core.run core (n + 1) s = Host.Core.run core n t := by
  have h' : core.step s = .next t := h
  simp only [Host.Core.run]
  rw [h']

end Sys2Proof.Machine
end

