-- ==== Sys2Proof/Machine/Assembler.lean ====
section
/-! DEFINITION. The assembler's view of `Main`'s programs (30_encoding.md section 5): event-kind and register names, the
command and bus lines, the pseudo-instructions, and the reference boot sequence and dispatch loop. No step reads it. -/

namespace Sys2Proof.Machine

/-- The pseudo-instructions of 30_encoding.md R103. -/
inductive Pseudo where
  | elapsedi (now start : Word)
  | tgti (a b : Word)
  | tgtei (a b : Word)
  | tlti (a b : Word)
  | tltei (a b : Word)
  | ktickI (now : Word)
  | ktickNow
deriving DecidableEq, Repr

/-- `WR <reg>, <value>` (30_encoding.md R102). -/
def wr (r : RegName) (v : Word) : MainOp := .write r.number (.const v)

/-- `RD <reg>` (30_encoding.md R102). -/
def rd (r : RegName) : MainOp := .read r.number

/-- A command line: `WR CMD, <word>` (30_encoding.md R102). -/
def commandLine (i : Instr) : MainOp := wr .cmd ((encode i).setWidth 32)

/-- `WR OPA, <x>` ; `WR OPB, <y>` ; a command. -/
def twoOperands (x y : Word) (i : Instr) : List MainOp := [wr .opa x, wr .opb y, commandLine i]

/-- The expansions of 30_encoding.md R103. -/
def Pseudo.expand : Pseudo → List MainOp
  | .elapsedi now start => twoOperands now start .elapsed
  | .tgti a b => twoOperands a b .tgt
  | .tgtei a b => twoOperands a b .tgte
  | .tlti a b => twoOperands b a .tgt
  | .tltei a b => twoOperands b a .tgte
  | .ktickI now => [wr .opa now, commandLine .ktick]
  | .ktickNow => [commandLine .gtick, rd .res, .write RegName.opa.number (.read 0), commandLine .ktick]

/-- The reference boot sequence (70_reset_and_hazards.md R234). -/
def referenceBoot : List MainOp := [commandLine .sinit, commandLine .kinit]

/-- Go to a position. -/
def jump (target : Nat) : MainOp := .branch (.const 1#32) target

/-- Is bit `k` of a value 0? -/
def bitClear (v : MainExpr) (k : Nat) : MainExpr := .op .equal (.op .and v (.const (1#32 <<< k))) (.const 0#32)

/-- The reference dispatch loop (40_scheduler.md R129), its first line at position `start`: wait, keep the snapshot as the
local value 0, run `KTICKNOW` where its bit `EV_TICK` is set, handle the other bits, begin again. `handle` is the
collaborators' part (00_scope.md R6); it finds the snapshot in the local value 0. -/
def referenceLoop (start : Nat) (handle : List MainOp) : List MainOp :=
  [commandLine .wait, rd .res, .assign 0 (.read 0), .branch (bitClear (.var 0) evTick) (start + 8)] ++
    Pseudo.ktickNow.expand ++ handle ++ [jump start]

/-- The loop of 95_test_vectors.md P3, its first line at position `start`: `n` iterations under a counter, the local
value 1, which the line before the loop sets to 0. -/
def countedLoop (start : Nat) (n : Word) : List MainOp :=
  [commandLine .wait, rd .res, .branch (bitClear (.read 0) evTick) start] ++ Pseudo.ktickNow.expand ++
    [.assign 1 (.op .add (.var 1) (.const 1#32)), .branch (.op .below (.var 1) (.const n)) start]

/-- The dispatch program of 95_test_vectors.md P3 to P6. -/
def dispatchProgram (n : Word) : List MainOp := referenceBoot ++ [.assign 1 (.const 0#32)] ++ countedLoop 3 n

/-! ### Text -/

/-- The event-kind names of 30_encoding.md R104, and the numbers 0 to 5 (R101). That a number is written as one decimal digit,
so that neither `0x3` nor `03` is a kind, is a DESIGN CHOICE, log entry 19. -/
def kindOfText (t : String) : Option (BitVec 4) :=
  match t with
  | "TICK" => some 0#4
  | "INPUT" => some 1#4
  | "P0RX" => some 2#4
  | "P0TX" => some 3#4
  | "P1RX" => some 4#4
  | "P1TX" => some 5#4
  | "0" => some 0#4
  | "1" => some 1#4
  | "2" => some 2#4
  | "3" => some 3#4
  | "4" => some 4#4
  | "5" => some 5#4
  | _ => none

/-- The register names of 30_encoding.md R102. -/
def regOfText (t : String) : Option RegName :=
  match t with
  | "CMD" => some .cmd
  | "OPA" => some .opa
  | "OPB" => some .opb
  | "RES" => some .res
  | "STATUS" => some .status
  | "ESTART" => some .estart
  | "EDUR" => some .edur
  | "ELOCK" => some .elock
  | "DUR0" => some (.dur .dot)
  | "DUR1" => some (.dur .dash)
  | "DUR2" => some (.dur .elementSpace)
  | "DUR3" => some (.dur .letterSpace)
  | "DUR4" => some (.dur .wordSpace)
  | "TRES0" => some (.tres .dot)
  | "TRES1" => some (.tres .dash)
  | "TRES2" => some (.tres .elementSpace)
  | "TRES3" => some (.tres .letterSpace)
  | "TRES4" => some (.tres .wordSpace)
  | "CWPM" => some .cwpm
  | "CSCALE0" => some (.cscale .dot)
  | "CSCALE1" => some (.cscale .dash)
  | "CSCALE2" => some (.cscale .elementSpace)
  | "CSCALE3" => some (.cscale .letterSpace)
  | "CSCALE4" => some (.cscale .wordSpace)
  | _ => none

/-- The command a mnemonic and its operands name: `ENQ` takes a kind from 0 to 5, no other mnemonic takes an operand
(30_encoding.md R101). -/
def commandOfText (mnemonic : String) (operands : List String) : Option Instr :=
  match mnemonic, operands with
  | "ENQ", [kind] => (kindOfText kind).map .enq
  | "SINIT", [] => some .sinit
  | "WAIT", [] => some .wait
  | "GTICK", [] => some .gtick
  | "ELAPSED", [] => some .elapsed
  | "TGT", [] => some .tgt
  | "TGTE", [] => some .tgte
  | "TCALC", [] => some .tcalc
  | "KINIT", [] => some .kinit
  | "KTICK", [] => some .ktick
  | "KPANIC", [] => some .kpanic
  | _, _ => none

/-- The value of one hexadecimal digit. -/
def digitValue (d : Char) : Option Nat :=
  if '0' ≤ d ∧ d ≤ '9' then some (d.toNat - '0'.toNat)
  else if 'a' ≤ d ∧ d ≤ 'f' then some (d.toNat - 'a'.toNat + 10)
  else if 'A' ≤ d ∧ d ≤ 'F' then some (d.toNat - 'A'.toNat + 10)
  else none

/-- The number a list of digits writes in a base, going on from `acc`. -/
def digitsValue (base : Nat) (acc : Nat) : List Char → Option Nat
  | [] => some acc
  | d :: ds =>
    match digitValue d with
    | none => none
    | some v => if v < base then digitsValue base (acc * base + v) ds else none

/-- A 32-bit constant: `0x...` is hexadecimal (00_scope.md R21), other digits decimal (log entry 19). -/
def constOfText (t : String) : Option Word :=
  let value : Option Nat :=
    match t.toList with
    | '0' :: 'x' :: d :: ds => digitsValue 16 0 (d :: ds)
    | d :: ds => digitsValue 10 0 (d :: ds)
    | [] => none
  match value with
  | none => none
  | some n => if n < 2 ^ 32 then some (BitVec.ofNat 32 n) else none

/-- The pseudo-instruction with two constants (30_encoding.md R103). -/
def pseudoOfText (mnemonic : String) (operands : List Word) : Option Pseudo :=
  match mnemonic, operands with
  | "ELAPSEDI", [x, y] => some (.elapsedi x y)
  | "TGTI", [x, y] => some (.tgti x y)
  | "TGTEI", [x, y] => some (.tgtei x y)
  | "TLTI", [x, y] => some (.tlti x y)
  | "TLTEI", [x, y] => some (.tltei x y)
  | "KTICKI", [x] => some (.ktickI x)
  | "KTICKNOW", [] => some .ktickNow
  | _, _ => none

/-- The constants a list of operand texts writes. -/
def constsOfText : List String → Option (List Word)
  | [] => some []
  | t :: ts =>
    match constOfText t, constsOfText ts with
    | some v, some vs => some (v :: vs)
    | _, _ => none

/-- The operations of one line's mnemonic and operands: a bus line (30_encoding.md R102), a command (R101) or a
pseudo-instruction (R103). -/
def assembleTokens (mnemonic : String) (operands : List String) : Option (List MainOp) :=
  match mnemonic, operands with
  | "WR", [r, v] =>
    match regOfText r, constOfText v with
    | some r, some v => some [wr r v]
    | _, _ => none
  | "RD", [r] => (regOfText r).map fun r => [rd r]
  | _, _ =>
    match commandOfText mnemonic operands with
    | some i => some [commandLine i]
    | none =>
      match constsOfText operands with
      | none => none
      | some vs => (pseudoOfText mnemonic vs).map Pseudo.expand

/-- The words of a line, `word` being the one read so far, backwards: blanks and commas part words, `;` starts a comment
(30_encoding.md R101, log entry 19). -/
def lexLine (word : List Char) : List Char → List String
  | [] => if word.isEmpty then [] else [String.ofList word.reverse]
  | ch :: rest =>
    if ch = ';' then (if word.isEmpty then [] else [String.ofList word.reverse])
    else if ch = ' ' ∨ ch = '\t' ∨ ch = ',' then
      (if word.isEmpty then lexLine [] rest else String.ofList word.reverse :: lexLine [] rest)
    else lexLine (ch :: word) rest

/-- The operations of one line of a program; a line with no word has none. -/
def assembleLine (line : String) : Option (List MainOp) :=
  match lexLine [] line.toList with
  | [] => some []
  | mnemonic :: operands => assembleTokens mnemonic operands

end Sys2Proof.Machine
end

