-- ==== Sys2Proof/Tests/Slice0.lean ====
section
/-! SUPPORT. Tests whose expected results are the vectors of 95_test_vectors.md, the smoke test of the well-formedness check,
and for every statement with hypotheses a state that meets them (`witness_<statement>`). -/

namespace Sys2Proof.Tests

open Sys2Proof.Machine

/-! ### Helpers -/

/-- The next state of an answer, if it is one. -/
def nextOf : Result → Option State
  | .next t => some t
  | .fault _ => none
  | .refused _ => none

/-- The registers of the next state, if the answer is one. -/
def coreOf (r : Result) : Option CoreState := (nextOf r).map State.core

/-- The refusal, if the answer is one. -/
def refusalOf : Result → Option Refusal
  | .next _ => none
  | .fault _ => none
  | .refused r => some r

/-- The fault, if the answer is one. -/
def faultOf : Result → Option Fault
  | .next _ => none
  | .fault r => some r
  | .refused _ => none

theorem eq_next_of_nextOf {r : Result} {t : State} (h : nextOf r = some t) : r = .next t := by
  cases r <;> simp_all [nextOf]

/-- A machine with these registers and ports, `Main` the issuer. -/
def machine (c : CoreState) (p : Ports) : State := { State.reset with core := c, ports := p }

/-- The operation of `Main`'s program that makes this access. -/
def operation : BusOp → MainOp
  | .read n => .read n
  | .write n v => .write n (.const v)

/-- `machine` with `Main` about to make this access. -/
def accessing (op : BusOp) (rest : List Event) (c : CoreState) (p : Ports) : State :=
  { machine c p with main := ⟨[operation op], 0, [], []⟩, events := .main :: rest }

theorem accessing_makes {op : BusOp} {rest : List Event} {c : CoreState} {p : Ports} (h : c.fatal = false) :
    (accessing op rest c p).mainAccesses rest op :=
  ⟨h, rfl, operation op, rfl, by cases op <;> rfl⟩

/-- The scales `ONE` of 95_test_vectors.md. -/
def one : Bank Word := Bank.const 0x3F800000#32

/-- The cache `DUR20` of 95_test_vectors.md. -/
def dur20 : CoreState :=
  { CoreState.reset with dur := ⟨60#32, 180#32, 60#32, 180#32, 420#32⟩, cwpm := 20#8, cscale := one }

/-- "E" of 95_test_vectors.md section 2.7: a dot begun at 1. -/
def dotE : CoreState := { dur20 with kstate := .dots, keyed := true, estart := 1#32, edur := 60#32, elock := 121#32 }

/-- Ports with the left paddle, the right paddle, both, or the straight key. -/
def leftIn : Ports := { Ports.reset with inL := true }
def rightIn : Ports := { Ports.reset with inR := true }
def bothIn : Ports := { Ports.reset with inL := true, inR := true }
def keyIn : Ports := { Ports.reset with inSk := true }

/-- A core in the fatal state with code 2. -/
def failed : CoreState := { CoreState.reset with fatal := true, fcode := 0x02#8 }

/-- What a keyer vector lists: state, `KEYED`, `PANICKED`, `ESTART`, `EDUR`, `ELOCK`. -/
structure KeyerView where
  kstate : KState
  keyed : Bool
  panicked : Bool
  estart : Tick
  edur : Tick
  elock : Tick
deriving DecidableEq, Repr

/-- The keyer after `KTICK` at `now`. -/
def afterKtick (c : CoreState) (p : Ports) (now : Tick) : Option KeyerView :=
  (coreOf (exec .ktick (machine { c with opa := now } p))).map
    fun t => ⟨t.kstate, t.keyed, t.panicked, t.estart, t.edur, t.elock⟩

/-- `TRES` after `TCALC`. -/
def afterTcalc (wpm : BitVec 8) (scale : Bank Word) : Option (Bank Tick) :=
  (coreOf (exec .tcalc (machine CoreState.reset { Ports.reset with cfgWpm := wpm, cfgScale := scale }))).map CoreState.tres

/-- `FATAL` and `FCODE` after `TCALC`. -/
def tcalcFails (wpm : BitVec 8) (scale : Bank Word) : Option (Bool × FatalCode) :=
  (coreOf (exec .tcalc (machine CoreState.reset { Ports.reset with cfgWpm := wpm, cfgScale := scale }))).map
    fun t => (t.fatal, t.fcode)

/-- `RES` after a command on two operands. -/
def resOf (i : Instr) (a b : Word) : Option Word :=
  (coreOf (exec i (machine { CoreState.reset with opa := a, opb := b } Ports.reset))).map CoreState.res

/-! ### Well-formedness, decoding, encoding (30_encoding.md R93, R96 to R98; vectors X1 to X16) -/

theorem test_wellFormed_refuses_kind_6 : (Instr.enq 6#4).wellFormed = false := by decide
theorem test_wellFormed_refuses_kind_15 : (Instr.enq 15#4).wellFormed = false := by decide
theorem test_wellFormed_accepts_kind_5 : (Instr.enq 5#4).wellFormed = true := by decide

theorem test_decode_scheduler_words :
    decode 0b0001000000000000#16 = .ok .sinit ∧ decode 0b0010001100000000#16 = .ok (.enq 3#4) ∧
    decode 0b0011000000000000#16 = .ok .wait ∧ decode 0b0100000000000000#16 = .ok .gtick ∧
    decode 0b0101000000000000#16 = .ok .elapsed ∧ decode 0b0110000000000000#16 = .ok .tgt ∧
    decode 0b0111000000000000#16 = .ok .tgte := by decide

theorem test_decode_timing_word : decode 0b1000000000000000#16 = .ok .tcalc := by decide

theorem test_decode_keyer_words :
    decode 0b1001000000000000#16 = .ok .kinit ∧ decode 0b1010000000000000#16 = .ok .ktick ∧
    decode 0b1011000000000000#16 = .ok .kpanic := by decide

theorem test_decode_illegal_words :
    decode 0x0100#16 = .error .reservedOp ∧ decode 0xC000#16 = .error .reservedOp ∧
    decode 0x1001#16 = .error .reservedBits ∧ decode 0x1100#16 = .error .kindOnNonEnq ∧
    decode 0x2600#16 = .error .invalidKind ∧ decode 0x2501#16 = .error .reservedBits := by decide

theorem test_decodeTableWord :
    decodeTableWord 16 0x2500 = some (.enq 5#4) ∧ decodeTableWord 16 0x2600 = none := by decide

/-- X8 and X15: the fatal words from the clean launch, seen in `STATUS`. -/
theorem test_fatal_words_status :
    (coreOf (issue 0x2600#16 State.reset)).map CoreState.status = some 0x00000110#32 ∧
    (coreOf (issue 0xC000#16 State.reset)).map CoreState.status = some 0x00000210#32 := by decide

/-! ### The scheduler (vectors S1 to S27) -/

theorem test_sinit :
    coreOf (exec .sinit (machine { CoreState.reset with tick := 1234#32, pending := 0x05#8, res := 9#32 } Ports.reset)) =
      some { CoreState.reset with res := 9#32 } := by decide

theorem test_enq_sets_its_bit :
    (coreOf (exec (.enq 3#4) (machine { CoreState.reset with pending := 0x01#8 } Ports.reset))).map CoreState.pending =
      some 0x09#8 := by decide

theorem test_enq_again :
    (coreOf (exec (.enq 5#4) (machine { CoreState.reset with pending := 0x20#8 } Ports.reset))).map CoreState.pending =
      some 0x20#8 := by decide

theorem test_wait_drains :
    coreOf (exec .wait (machine { CoreState.reset with pending := 0x03#8 } Ports.reset)) =
      some { CoreState.reset with res := 0x00000003#32 } := by decide

theorem test_wait_holds :
    (nextOf (step (accessing (.write 0x00#8 0x3000#32) [.timer] CoreState.reset Ports.reset))).map
      (fun t => (t.core, t.main.pos)) = some (CoreState.reset, 0) := by decide

theorem test_gtick :
    (coreOf (exec .gtick (machine { CoreState.reset with tick := 0x2A#32 } Ports.reset))).map CoreState.res =
      some 0x0000002A#32 := by decide

theorem test_elapsed :
    resOf .elapsed 0x00000003#32 0x00000005#32 = some 0xFFFFFFFE#32 ∧
    resOf .elapsed 0x00000002#32 0xFFFFFFFD#32 = some 0x00000005#32 ∧
    resOf .elapsed 0x80000000#32 0x00000000#32 = some 0x80000000#32 := by decide

theorem test_tgt :
    resOf .tgt 0x00000000#32 0xFFFFFFFF#32 = some 1#32 ∧ resOf .tgt 0x00000005#32 0x00000005#32 = some 0#32 ∧
    resOf .tgt 0x80000000#32 0x00000000#32 = some 0#32 ∧ resOf .tgt 0x00000000#32 0x80000000#32 = some 0#32 := by decide

/-- S25 to S27: the order is not transitive (40_scheduler.md R125). -/
theorem test_tgt_not_transitive :
    resOf .tgt 0x60000000#32 0x00000000#32 = some 1#32 ∧ resOf .tgt 0xC0000000#32 0x60000000#32 = some 1#32 ∧
    resOf .tgt 0xC0000000#32 0x00000000#32 = some 0#32 := by decide

theorem test_tgte :
    resOf .tgte 0x00000005#32 0x00000005#32 = some 1#32 ∧ resOf .tgte 0x80000000#32 0x00000000#32 = some 0#32 ∧
    resOf .tgte 0x00000000#32 0x80000001#32 = some 1#32 := by decide

/-- S2, S4. -/
theorem test_timer_step :
    coreOf (step { machine { CoreState.reset with tick := 0xFFFFFFFF#32 } Ports.reset with events := [.timer] }) =
      some { CoreState.reset with pending := 0x01#8 } ∧
    coreOf (step { machine { CoreState.reset with tick := 7#32, pending := 0x0C#8 } Ports.reset with events := [.timer] }) =
      some { CoreState.reset with tick := 8#32, pending := 0x0D#8 } := by decide

/-- S5. -/
theorem test_timer_halted :
    faultOf (step { machine failed Ports.reset with events := [.timer] }) = some (.halted 0x02#8) := by decide

/-! ### The calculator (vectors T1 to T20) -/

theorem test_tcalc :
    afterTcalc 32#8 one = some ⟨38#32, 113#32, 38#32, 113#32, 263#32⟩ ∧
    afterTcalc 100#8 (Bank.const 0x3DCCCCCD#32) = some ⟨1#32, 4#32, 1#32, 4#32, 8#32⟩ ∧
    afterTcalc 1#8 (Bank.const 0x41200000#32) = some ⟨12000#32, 36000#32, 12000#32, 36000#32, 84000#32⟩ ∧
    afterTcalc 20#8 ⟨0x3F000000#32, 0x3FC00000#32, 0x40000000#32, 0x3F800000#32, 0x3F800000#32⟩ =
      some ⟨30#32, 270#32, 120#32, 180#32, 420#32⟩ := by decide

theorem test_tcalc_invalid :
    tcalcFails 0#8 one = some (true, 0x03#8) ∧ tcalcFails 101#8 one = some (true, 0x03#8) ∧
    tcalcFails 20#8 { one with dot := 0x7FC00000#32 } = some (true, 0x03#8) ∧
    tcalcFails 20#8 { one with dot := 0x41200001#32 } = some (true, 0x03#8) ∧
    tcalcFails 20#8 { one with dot := 0x3DCCCCCC#32 } = some (true, 0x03#8) ∧
    tcalcFails 20#8 { one with wordSpace := 0x7F800000#32 } = some (true, 0x03#8) ∧
    tcalcFails 20#8 { one with elementSpace := 0xBF800000#32 } = some (true, 0x03#8) := by decide

/-! ### The keyer (vectors K1 to K24) -/

/-- K16. -/
theorem test_kinit :
    coreOf (exec .kinit (machine { dur20 with kstate := .dots, keyed := true, estart := 500#32 } Ports.reset)) =
      some CoreState.reset := by decide

/-- K13. -/
theorem test_kpanic :
    coreOf (exec .kpanic (machine { dur20 with kstate := .on, keyed := true } keyIn)) =
      some { dur20 with kstate := .on, keyed := false, panicked := true } := by decide

/-- K1, K5, K7, K10, K22, K24, and K18's last call: an element begins. -/
theorem test_ktick_begins :
    [ afterKtick dur20 leftIn 1#32,
      afterKtick { dotE with keyed := false } leftIn 121#32,
      afterKtick dur20 { leftIn with cfgInvert := true } 1#32,
      afterKtick dotE rightIn 200#32,
      afterKtick { dotE with keyed := false, panicked := true } rightIn 30#32,
      afterKtick CoreState.reset { leftIn with cfgWpm := 25#8 } 7#32,
      afterKtick { dotE with keyed := false, estart := 0xFFFFFFF0#32, elock := 0x68#32 } leftIn 0x68#32 ] =
    [ some ⟨.dots, true, false, 1#32, 60#32, 121#32⟩,
      some ⟨.dots, true, false, 121#32, 60#32, 241#32⟩,
      some ⟨.dashes, true, false, 1#32, 180#32, 241#32⟩,
      some ⟨.dashes, true, false, 200#32, 180#32, 440#32⟩,
      some ⟨.dashes, true, false, 30#32, 180#32, 270#32⟩,
      some ⟨.dots, true, false, 7#32, 48#32, 103#32⟩,
      some ⟨.dots, true, false, 0x68#32, 60#32, 0xE0#32⟩ ] := by decide

/-- K2, K3, K4, K6, K8, K9, K11, K12, K17, K21, K23: an element goes on, ends, or is not begun. -/
theorem test_ktick_goes_on_or_ends :
    [ afterKtick dotE leftIn 60#32,
      afterKtick dotE leftIn 61#32,
      afterKtick { dotE with keyed := false } leftIn 120#32,
      afterKtick dotE bothIn 30#32,
      afterKtick dotE rightIn 30#32,
      afterKtick dotE leftIn 200#32,
      afterKtick { dur20 with kstate := .on, panicked := true } keyIn 50#32,
      afterKtick { dur20 with kstate := .on, keyed := true } Ports.reset 501#32,
      afterKtick { dotE with kstate := .dashes, edur := 180#32, elock := 241#32 } Ports.reset 11#32,
      afterKtick { dotE with keyed := false, panicked := true } bothIn 200#32,
      afterKtick { dotE with estart := 100#32, elock := 220#32 } leftIn 50#32 ] =
    [ some ⟨.dots, true, false, 1#32, 60#32, 121#32⟩,
      some ⟨.dots, false, false, 1#32, 60#32, 121#32⟩,
      some ⟨.dots, false, false, 1#32, 60#32, 121#32⟩,
      some ⟨.dots, true, false, 1#32, 60#32, 121#32⟩,
      some ⟨.dashes, true, false, 1#32, 60#32, 121#32⟩,
      some ⟨.dots, false, false, 1#32, 60#32, 121#32⟩,
      some ⟨.on, false, true, 0#32, 0#32, 0#32⟩,
      some ⟨.off, false, false, 0#32, 0#32, 0#32⟩,
      some ⟨.off, true, false, 1#32, 180#32, 241#32⟩,
      some ⟨.dots, false, true, 1#32, 60#32, 121#32⟩,
      some ⟨.dots, false, false, 100#32, 60#32, 220#32⟩ ] := by decide

/-! ### The bus, the agents, reset (vectors B1 to B9) -/

/-- B2, B3: `RD STATUS`. -/
theorem test_bus_read_status :
    (nextOf (step (accessing (.read 0x04#8) [] dotE Ports.reset))).map (fun t => t.main.reads) = some [0x00000006#32] ∧
    (nextOf (step (accessing (.read 0x04#8) [] { dur20 with kstate := .on, panicked := true } Ports.reset))).map
      (fun t => t.main.reads) = some [0x00000009#32] := by decide

/-- B1: `WR OPA`. -/
theorem test_bus_write_opa :
    coreOf (step (accessing (.write 0x01#8 0xDEADBEEF#32) [] CoreState.reset Ports.reset)) =
      some { CoreState.reset with opa := 0xDEADBEEF#32 } := by decide

/-- B4, B5, B6. -/
theorem test_bus_refusals :
    refusalOf (step (accessing (.read 0x00#8) [] CoreState.reset Ports.reset)) = some .readOfCmd ∧
    refusalOf (step (accessing (.write 0x03#8 1#32) [] CoreState.reset Ports.reset)) = some (.readOnlyRegister 0x03#8) ∧
    refusalOf (step (accessing (.read 0x18#8) [] CoreState.reset Ports.reset)) = some (.unassignedRegister 0x18#8) := by
  decide

/-- B7, B8, B9. -/
theorem test_isr_accesses :
    coreOf (step { State.reset with events := [.access (.isr .port0Rx) (.write 0x00#8 0x2200#32)] }) =
      some { CoreState.reset with pending := 0x04#8 } ∧
    refusalOf (step { State.reset with events := [.access (.isr .port0Rx) (.write 0x00#8 0x4000#32)] }) =
      some (.contextForbids (.interrupt (.isr .port0Rx))) ∧
    refusalOf (step { State.reset with events := [.access (.isr .port0Rx) (.write 0x01#8 1#32)] }) =
      some (.interruptAccess (.interrupt (.isr .port0Rx))) := by decide

/-- The line and the failure signal of P7a: `KEY_LINE = CFG_ACTIVE_LOW`, `FAIL_SIGNAL = 1`. -/
theorem test_fatal_outputs :
    (machine failed { Ports.reset with cfgActiveLow := true }).keyLine = true ∧
    (machine failed Ports.reset).keyLine = false ∧ (machine failed Ports.reset).failSignal = true := by decide

/-- The very next step runs the loaded word: `ENQ 5`, then the fatal word of X15. -/
theorem test_withFetchWord :
    coreOf (step (State.reset.withFetchWord 16 0x2500)) = some { CoreState.reset with pending := 0x20#8 } ∧
    (coreOf (step (State.reset.withFetchWord 16 0xC000))).map CoreState.fcode = some 0x02#8 := by decide

/-- `Main` writes an older read, keeps a local value, and branches on it. -/
theorem test_main_operations :
    coreOf (step { State.reset with main := ⟨[.write 0x01#8 (.read 1)], 0, [7#32, 5#32], []⟩, events := [.main] }) =
      some { CoreState.reset with opa := 5#32 } ∧
    (nextOf (step { State.reset with
      main := ⟨[.assign 1 (.op .add (.var 1) (.const 1#32))], 0, [], [9#32, 4#32]⟩, events := [.main] })).map
      (fun t => (t.main.pos, t.main.locals)) = some (1, [9#32, 5#32]) ∧
    (nextOf (step { State.reset with
      main := ⟨[.branch (.op .below (.var 0) (.const 3#32)) 7], 0, [], [2#32]⟩, events := [.main] })).map
      (fun t => t.main.pos) = some 7 := by decide

/-- The run is over once `SINIT` is done; the timer steps still to come are not in the observation. -/
theorem test_run_ends_at_the_first_good_end :
    (runToEnd 3 { State.reset.withFetchWord 16 0x1000 with
      core := { CoreState.reset with tick := 9#32 }, events := [.main, .timer, .timer] }).observation =
      some ⟨CoreState.reset, ⟨false, false, false, false⟩⟩ := by decide

/-- Lines of P1 and of 30_encoding.md R101 to R103. -/
theorem test_assembler_lines :
    assembleLine "WR OPB, 0xFFFFFFFD ; then" = some [.write 0x02#8 (.const 0xFFFFFFFD#32)] ∧
    assembleLine "ENQ P0RX" = some [.write 0x00#8 (.const 0x2200#32)] ∧
    assembleLine "TLTI 1, 2" =
      some [.write 0x01#8 (.const 2#32), .write 0x02#8 (.const 1#32), .write 0x00#8 (.const 0x6000#32)] ∧
    assembleLine "ENQ 6" = none := by decide

/-! ### Witnesses: for every statement with hypotheses, states and operands that meet them -/

theorem exists_next {r : Result} (h : (nextOf r).isSome = true) : ∃ t, r = .next t := by
  cases r <;> simp_all [nextOf]

theorem ktickTo_of {s t : State} (hm : s.mainMayIssue) (h : nextOf (exec .ktick s) = some t)
    (hf : t.core.fatal = false) : s.ktickTo t := ⟨hm, eq_next_of_nextOf h, hf⟩

/-- A machine whose next step is this event. -/
def scheduled (e : Event) (c : CoreState) : State := { machine c Ports.reset with events := [e] }

/-- A machine whose step is being taken by this agent. -/
def issuedBy (a : Agent) : State := { State.reset with issuer := a }

/-- The keyer at "E", `now` in `OPA`, with these ports. -/
def dotAt (now : Tick) (p : Ports) : State := machine { dotE with opa := now } p

/-- The largest and the smallest valid scales. -/
def slowest : Bank Word := Bank.const 0x41200000#32
def fastest : Bank Word := Bank.const 0x3DCCCCCD#32

theorem witness_SinitZeroesTickAndPending : State.reset.mainMayIssue := ⟨rfl, rfl⟩

theorem witness_EnqSetsExactlyItsBit :
    (0#4).toNat < 6 ∧ (5#4).toNat < 6 ∧ 6 ≤ (6#4).toNat ∧ 6 ≤ (15#4).toNat ∧ State.reset.enqMayIssue ∧
    (issuedBy (.interrupt (.isr .port1Tx))).enqMayIssue :=
  ⟨by decide, by decide, by decide, by decide, ⟨rfl, .inl rfl⟩, ⟨rfl, .inr ⟨_, rfl⟩⟩⟩

theorem witness_InvalidEventKindIsFatal :
    6 ≤ (6#4).toNat ∧ 6 ≤ (15#4).toNat ∧ State.reset.enqMayIssue ∧ (issuedBy (.interrupt (.isr .input))).enqMayIssue :=
  ⟨by decide, by decide, ⟨rfl, .inl rfl⟩, ⟨rfl, .inr ⟨_, rfl⟩⟩⟩

theorem witness_WaitTakesSnapshotAndClears :
    (State.reset.mainMayIssue ∧ State.reset.core.pending = 0#8) ∧
    ∃ s : State, s.mainMayIssue ∧ s.core.pending ≠ 0#8 ∧ s.core.pending = 0x3F#8 ∧ s.core.pendingLegal :=
  ⟨⟨⟨rfl, rfl⟩, rfl⟩, machine { CoreState.reset with pending := 0x3F#8 } Ports.reset, ⟨rfl, rfl⟩, by decide, rfl,
    (by decide : (0x3F#8).toNat < 64)⟩

theorem witness_WaitNeverReturnsEmptySet :
    ∃ (s t : State) (v : Word), s.mainAccesses [] (.write 0x00#8 v) ∧ v.setWidth 16 = 0x3000#16 ∧ step s = .next t ∧
      t.main.pos = s.main.pos + 1 := by
  have hs : (nextOf (step (accessing (.write 0x00#8 0xABCD3000#32) [] { CoreState.reset with pending := 0x20#8 }
      Ports.reset))).map (fun t => t.main.pos) = some 1 := by decide
  obtain ⟨t, ht, hp⟩ := Option.map_eq_some_iff.mp hs
  exact ⟨_, t, _, accessing_makes rfl, by decide, eq_next_of_nextOf ht, hp⟩

theorem witness_WaitHoldsUntilAnEvent :
    (∃ (s : State) (v : Word), s.mainAccesses [.timer, .main] (.write 0x00#8 v) ∧ v.setWidth 16 = 0x3000#16 ∧
      s.core.pending = 0#8) ∧
    ∃ (s : State) (v : Word),
      s.mainAccesses [.access (.isr .port1Tx) (.write 0x00#8 (IsrSource.port1Tx.word.setWidth 32)), .main]
        (.write 0x00#8 v) ∧ v.setWidth 16 = 0x3000#16 ∧ s.core.pending = 0#8 :=
  ⟨⟨accessing (.write 0x00#8 0x3000#32) _ CoreState.reset Ports.reset, 0x3000#32, accessing_makes rfl, by decide, rfl⟩,
    accessing (.write 0x00#8 0xFFFF3000#32) _ CoreState.reset Ports.reset, 0xFFFF3000#32, accessing_makes rfl,
    by decide, rfl⟩

theorem witness_GtickReadsTheTick : State.reset.mainMayIssue := ⟨rfl, rfl⟩
theorem witness_ElapsedIsModularDifference : State.reset.mainMayIssue := ⟨rfl, rfl⟩
theorem witness_TgtIsStrictHalfRangeTest : State.reset.mainMayIssue := ⟨rfl, rfl⟩
theorem witness_TgteIsHalfRangeTest : State.reset.mainMayIssue := ⟨rfl, rfl⟩

theorem witness_TickOrderingLaws :
    ((0x7FFFFFFF#32 : Tick) ≠ 0#32 ∧ (0x7FFFFFFF#32 - 0#32 : Tick).toNat ≠ 2 ^ 31) ∧
    (0x80000000#32 - 0#32 : Tick).toNat = 2 ^ 31 := by decide

theorem witness_OrderingCorrectWithinHalfRange :
    (2147483647 < 0 + 2 ^ 31 ∧ 0 < 2147483647 + 2 ^ 31) ∧ (0 < 2147483647 + 2 ^ 31 ∧ 2147483647 < 0 + 2 ^ 31) := by
  decide

theorem witness_TimerStepAdvancesTick :
    ((scheduled .timer CoreState.reset).events = .timer :: [] ∧ (scheduled .timer CoreState.reset).core.fatal = false) ∧
    ((scheduled .timer failed).events = .timer :: [] ∧ (scheduled .timer failed).core.fatal = true) :=
  ⟨⟨rfl, rfl⟩, rfl, rfl⟩

theorem witness_TimerStepsWrapAndCoalesce :
    ∃ s : State, s.core.fatal = false ∧ s.core.tick = 0xFFFFFFFF#32 ∧
      s.events = List.replicate (1 + 1) .timer ++ [.main] :=
  ⟨{ machine { CoreState.reset with tick := 0xFFFFFFFF#32 } Ports.reset with events := [.timer, .timer, .main] },
    rfl, rfl, rfl⟩

theorem witness_OnlyTimerSinitAndResetWriteTick :
    (∃ t, step (scheduled .timer dotE) = .next t) ∧ (∃ t, step (scheduled .powerOn dotE) = .next t) ∧
    ∃ t, step (accessing (.write 0x00#8 0x1000#32) [] dotE Ports.reset) = .next t :=
  ⟨exists_next (by decide), exists_next (by decide), exists_next (by decide)⟩

theorem witness_PendingEventsAreNeverLost :
    (∃ t, step (scheduled .timer { dotE with pending := 0x21#8 }) = .next t) ∧
    ∃ t, step (accessing (.write 0x00#8 0x3000#32) [] { dotE with pending := 0x21#8 } Ports.reset) = .next t :=
  ⟨exists_next (by decide), exists_next (by decide)⟩

theorem witness_TcalcWritesResultsOrIsFatal :
    ∃ s u : State, (s.mainMayIssue ∧ s.ports.cfgWpm = 100#8 ∧ s.configValid) ∧
      (u.mainMayIssue ∧ u.ports.cfgWpm = 101#8 ∧ ¬ u.configValid) :=
  ⟨machine CoreState.reset { Ports.reset with cfgWpm := 100#8 }, machine CoreState.reset { Ports.reset with cfgWpm := 101#8 },
    ⟨⟨rfl, rfl⟩, rfl, by unfold State.configValid; decide⟩, ⟨⟨rfl, rfl⟩, rfl, by unfold State.configValid; decide⟩⟩

theorem witness_DurationsRoundTheExactProduct :
    validConfig 1#8 slowest = true ∧ validConfig 100#8 fastest = true := by decide

theorem witness_DurationsStayInRange :
    validConfig 1#8 slowest = true ∧ validConfig 100#8 fastest = true := by decide

theorem witness_FasterSpeedNeverLengthens :
    validConfig 37#8 one = true ∧ validConfig 38#8 one = true ∧ (37#8).toNat < (38#8).toNat := by decide

theorem witness_UnitScaleRatioLaws :
    (1 ≤ (1#8).toNat ∧ (1#8).toNat ≤ 100) ∧ (1 ≤ (100#8).toNat ∧ (100#8).toNat ≤ 100) := by decide

theorem witness_KtickRefreshesTheCache :
    ∃ s u v : State, (s.mainMayIssue ∧ s.keyDiffers ∧ ¬ s.configValid) ∧ (u.mainMayIssue ∧ u.keyDiffers ∧ u.configValid) ∧
      (v.mainMayIssue ∧ ¬ v.keyDiffers) :=
  ⟨machine CoreState.reset { Ports.reset with cfgWpm := 0#8 }, State.reset, dotAt 30#32 leftIn,
    ⟨⟨rfl, rfl⟩, .inl rfl, by unfold State.configValid; decide⟩,
    ⟨⟨rfl, rfl⟩, .inl rfl, by unfold State.configValid; decide⟩, ⟨rfl, rfl⟩, by unfold State.keyDiffers; decide⟩

theorem witness_KinitEmptiesTheKeyer : (dotAt 30#32 leftIn).mainMayIssue := ⟨rfl, rfl⟩
theorem witness_KpanicSilencesAtOnce : (dotAt 30#32 leftIn).mainMayIssue := ⟨rfl, rfl⟩

theorem witness_KtickCompletesInTheNextState :
    ((dotAt 30#32 leftIn).mainMayIssue ∧ ¬ (dotAt 30#32 leftIn).keyDiffers) ∧
    (State.reset.mainMayIssue ∧ State.reset.configValid) :=
  ⟨⟨⟨rfl, rfl⟩, by unfold State.keyDiffers; decide⟩, ⟨rfl, rfl⟩, by unfold State.configValid; decide⟩

/-- K1 and K5. -/
theorem witness_ElementBeginsWhenLockoutExpired :
    (∃ s t : State, s.ktickTo t ∧ s.core.panicked = false ∧ t.core.kstate = .dots ∧
      (s.core.elock - s.core.estart).toNat ≤ (s.core.opa - s.core.estart).toNat ∧ t.core.kstate ≠ s.core.kstate) ∧
    ∃ s t : State, s.ktickTo t ∧ s.core.panicked = false ∧ t.core.kstate = .dots ∧
      (s.core.elock - s.core.estart).toNat ≤ (s.core.opa - s.core.estart).toNat ∧ s.core.keyed = false :=
  ⟨⟨machine { dur20 with opa := 1#32 } leftIn, machine { dotE with opa := 1#32 } leftIn,
      ktickTo_of ⟨rfl, rfl⟩ (by decide) rfl, rfl, rfl, by decide, by decide⟩,
    machine { dotE with keyed := false, opa := 121#32 } leftIn,
    machine { dotE with estart := 121#32, elock := 241#32, opa := 121#32 } leftIn,
    ktickTo_of ⟨rfl, rfl⟩ (by decide) rfl, rfl, rfl, by decide, rfl⟩

/-- K8's first call and K9's. -/
theorem witness_ElementEndsWhenDurationElapsed :
    (∃ s t : State, s.ktickTo t ∧ s.core.panicked = false ∧ t.core.kstate = .dashes ∧
      (s.core.opa - s.core.estart).toNat < (s.core.elock - s.core.estart).toNat) ∧
    ∃ s t : State, s.ktickTo t ∧ s.core.panicked = false ∧ t.core.kstate = .dots ∧
      t.core.kstate = s.core.kstate ∧ s.core.keyed = true :=
  ⟨⟨dotAt 30#32 rightIn, machine { dotE with kstate := .dashes, opa := 30#32 } rightIn,
      ktickTo_of ⟨rfl, rfl⟩ (by decide) rfl, rfl, rfl, by decide⟩,
    dotAt 200#32 leftIn, machine { dotE with keyed := false, opa := 200#32 } leftIn,
    ktickTo_of ⟨rfl, rfl⟩ (by decide) rfl, rfl, rfl, rfl, rfl⟩

/-- K12, and the straight key pressed. -/
theorem witness_OffAndOnActions :
    (∃ s t : State, s.ktickTo t ∧ s.core.panicked = false ∧ t.core.kstate = .off) ∧
    ∃ s t : State, s.ktickTo t ∧ s.core.panicked = false ∧ t.core.kstate = .on :=
  ⟨⟨machine { dur20 with kstate := .on, keyed := true, opa := 501#32 } Ports.reset,
      machine { dur20 with opa := 501#32 } Ports.reset, ktickTo_of ⟨rfl, rfl⟩ (by decide) rfl, rfl, rfl⟩,
    machine dur20 keyIn, machine { dur20 with kstate := .on, keyed := true } keyIn,
    ktickTo_of ⟨rfl, rfl⟩ (by decide) rfl, rfl, rfl⟩

/-- K22, and a release and a straight key from the same panic. -/
theorem witness_StateChangeClearsPanic :
    (∃ s t : State, s.ktickTo t ∧ s.core.panicked = true ∧ t.core.kstate ≠ s.core.kstate ∧ t.core.kstate = .dashes) ∧
    (∃ s t : State, s.ktickTo t ∧ s.core.panicked = true ∧ t.core.kstate ≠ s.core.kstate ∧ t.core.kstate = .off) ∧
    ∃ s t : State, s.ktickTo t ∧ s.core.panicked = true ∧ t.core.kstate ≠ s.core.kstate ∧ t.core.kstate = .on :=
  ⟨⟨machine { dotE with keyed := false, panicked := true, opa := 30#32 } rightIn,
      machine { dotE with kstate := .dashes, estart := 30#32, edur := 180#32, elock := 270#32, opa := 30#32 } rightIn,
      ktickTo_of ⟨rfl, rfl⟩ (by decide) rfl, rfl, by decide, rfl⟩,
    ⟨machine { dotE with keyed := false, panicked := true, opa := 30#32 } Ports.reset,
      machine { dur20 with opa := 30#32 } Ports.reset, ktickTo_of ⟨rfl, rfl⟩ (by decide) rfl, rfl, by decide, rfl⟩,
    machine { dotE with keyed := false, panicked := true, opa := 30#32 } keyIn,
    machine { dur20 with kstate := .on, keyed := true, opa := 30#32 } keyIn,
    ktickTo_of ⟨rfl, rfl⟩ (by decide) rfl, rfl, by decide, rfl⟩

/-- K21. -/
theorem witness_PanicPersistsWhileStateHolds :
    ∃ s t : State, s.ktickTo t ∧ s.core.panicSilent ∧ s.core.panicked = true ∧ t.core.kstate = s.core.kstate :=
  ⟨machine { dotE with keyed := false, panicked := true, opa := 200#32 } bothIn,
    machine { dotE with keyed := false, panicked := true, opa := 200#32 } bothIn,
    ktickTo_of ⟨rfl, rfl⟩ (by decide) rfl, fun _ => rfl, rfl, rfl⟩

/-- K20 and K19. -/
theorem witness_SqueezeHoldsTheState :
    (∃ s t : State, s.ktickTo t ∧ s.ports.inSk = false ∧ s.ports.inL = true ∧ s.ports.inR = true ∧
      s.core.kstate = .on ∧ s.core.panicked = false) ∧
    ∃ s t : State, s.ktickTo t ∧ s.ports.inSk = false ∧ s.ports.inL = true ∧ s.ports.inR = true ∧
      s.core.kstate = .off ∧ s.core.keyed = false :=
  ⟨⟨machine { dur20 with kstate := .on, keyed := true, opa := 5#32 } bothIn,
      machine { dur20 with kstate := .on, keyed := true, opa := 5#32 } bothIn,
      ktickTo_of ⟨rfl, rfl⟩ (by decide) rfl, rfl, rfl, rfl, rfl, rfl⟩,
    machine { dur20 with opa := 5#32 } bothIn, machine { dur20 with opa := 5#32 } bothIn,
    ktickTo_of ⟨rfl, rfl⟩ (by decide) rfl, rfl, rfl, rfl, rfl, rfl⟩

/-- K15's first call. -/
theorem witness_SpeedChangeKeepsElementInProgress :
    ∃ s t : State, s.ktickTo t ∧ s.core.keyed = true ∧ t.core.kstate = s.core.kstate :=
  ⟨dotAt 10#32 { leftIn with cfgWpm := 30#8 },
    machine { dotE with opa := 10#32, dur := ⟨40#32, 120#32, 40#32, 120#32, 280#32⟩, cwpm := 30#8 }
      { leftIn with cfgWpm := 30#8 }, ktickTo_of ⟨rfl, rfl⟩ (by decide) rfl, rfl, rfl⟩

/-- P4's train, started two ticks before the wrap, and one with the longest d and s = 0. -/
theorem witness_HeldPaddleGivesDriftFreeTrain :
    (∃ (s : State) (t0 : Tick), s.mainMayIssue ∧ ¬ s.keyDiffers ∧ s.ports.inSk = false ∧
      (if s.ports.cfgInvert then s.ports.inR else s.ports.inL) = true ∧
      (if s.ports.cfgInvert then s.ports.inL else s.ports.inR) = false ∧ s.core.panicked = false ∧
      s.core.kstate ≠ .dots ∧ (s.core.elock - s.core.estart).toNat ≤ (t0 - s.core.estart).toNat ∧
      s.core.dur.dot.toNat = 60 ∧ s.core.dur.elementSpace.toNat = 60 ∧ 1 ≤ 60 ∧ 60 + 60 < 2 ^ 31) ∧
    ∃ (s : State) (t0 : Tick), s.mainMayIssue ∧ ¬ s.keyDiffers ∧ s.ports.inSk = false ∧
      (if s.ports.cfgInvert then s.ports.inR else s.ports.inL) = true ∧
      (if s.ports.cfgInvert then s.ports.inL else s.ports.inR) = false ∧ s.core.panicked = false ∧
      s.core.kstate ≠ .dots ∧ (s.core.elock - s.core.estart).toNat ≤ (t0 - s.core.estart).toNat ∧
      s.core.dur.dot.toNat = 2147483647 ∧ s.core.dur.elementSpace.toNat = 0 ∧ 1 ≤ 2147483647 ∧
      2147483647 + 0 < 2 ^ 31 :=
  ⟨⟨machine dur20 leftIn, 0xFFFFFFFE#32, ⟨rfl, rfl⟩, by unfold State.keyDiffers; decide, rfl, rfl, rfl, rfl, by decide,
      by decide, rfl, rfl, by decide, by decide⟩,
    machine { dur20 with dur := ⟨0x7FFFFFFF#32, 180#32, 0#32, 180#32, 420#32⟩ } leftIn, 1#32, ⟨rfl, rfl⟩,
    by unfold State.keyDiffers; decide, rfl, rfl, rfl, rfl, by decide, by decide, rfl, rfl, by decide, by decide⟩

/-- The invariants hold of "E". -/
theorem dotE_meets_the_invariants (now : Tick) : ({ dotE with opa := now } : CoreState).Inv where
  panic := (fun h => by cases h)
  fatal := ⟨(fun h => by cases h), fun _ => rfl⟩
  timers := (by decide : (60#32 : Tick).toNat ≤ (121#32 - 1#32 : Tick).toNat)
  pending := (by decide : (0#8).toNat < 64)
  cache := .inr ⟨(by decide : validConfig 20#8 one = true),
    (by decide : (⟨60#32, 180#32, 60#32, 180#32, 420#32⟩ : Bank Tick) = calcDurations 20#8 one)⟩

/-- K3. -/
theorem witness_KtickTwiceIsKtickOnce :
    ∃ s t : State, s.core.Inv ∧ s.ktickTo t ∧
      ¬ (t.core.kstate = s.core.kstate ∧ (s.core.kstate = .dots ∨ s.core.kstate = .dashes) ∧ s.core.keyed = true ∧
        (s.core.elock - s.core.estart).toNat ≤ (s.core.opa - s.core.estart).toNat) :=
  ⟨dotAt 61#32 leftIn, machine { dotE with keyed := false, opa := 61#32 } leftIn, dotE_meets_the_invariants _,
    ktickTo_of ⟨rfl, rfl⟩ (by decide) rfl, by decide⟩

/-- Why the idempotence rule cannot hold beside R175 (log entry 16): two histories leave one core state. In the first the
output went silent at 61 and `OPA` was then written, so R175 begins an element at 200; in the second one `KTICK` at 200
silenced it, and the idempotence rule would have a second one begin none. -/
theorem one_state_after_two_histories :
    (coreOf (exec .ktick (dotAt 61#32 leftIn))).map (CoreState.setOpa 200#32) =
      coreOf (exec .ktick (dotAt 200#32 leftIn)) := by decide

/-- So no `KTICK` over the core's state and the ports is idempotent there (log entry 16): whatever function `K` it is, if it
ends the element at 200 (R176, K9) and begins one from the silent state at 200 (R175 (b), its own words from the source), then
a second call at 200 is not the first. -/
theorem no_ktick_is_idempotent_there (K : CoreState → Ports → CoreState)
    (ends : K { dotE with opa := 200#32 } leftIn = { dotE with opa := 200#32, keyed := false })
    (begins : (K { dotE with opa := 200#32, keyed := false } leftIn).keyed = true) :
    K (K { dotE with opa := 200#32 } leftIn) leftIn ≠ K { dotE with opa := 200#32 } leftIn := by
  intro h
  rw [ends] at h
  rw [h] at begins
  cases begins

theorem witness_EveryStepKeepsTheInvariants :
    ∃ s : State, s.core.Inv ∧ ∃ t, step s = .next t :=
  ⟨accessing (.write 0x00#8 0xA000#32) [] { dotE with opa := 61#32 } leftIn, dotE_meets_the_invariants _,
    exists_next (by decide)⟩

theorem witness_OnlyPowerOnLeavesTheFatalState :
    (∃ s : State, s.core.fatal = true ∧ ∃ t, step s = .next t ∧ s.events = [.powerOn]) ∧
    ∃ s : State, s.core.fatal = true ∧ ∃ t, step s = .next t ∧ s.events = [.env leftIn] :=
  ⟨⟨scheduled .powerOn failed, rfl, _, rfl, rfl⟩, scheduled (.env leftIn) failed, rfl, _, rfl, rfl⟩

theorem witness_FatalStateHaltsEveryAgentButEnv :
    (scheduled .main failed).core.fatal = true ∧ (scheduled .main failed).events = [.main] ∧
    (scheduled .timer failed).events = [.timer] ∧
    (scheduled (.access (.isr .input) (.write 0x00#8 0x2100#32)) failed).events =
      [.access (.isr .input) (.write 0x00#8 0x2100#32)] ∧
    (scheduled (.env keyIn) failed).events = [.env keyIn] ∧ (scheduled .main failed).core.fatalSilent :=
  ⟨rfl, rfl, rfl, rfl, rfl, fun _ => ⟨rfl, by decide⟩, (fun h => by cases h)⟩

/-- X9, X15, K14: one state for each of the three codes. -/
theorem witness_FatalEntryIsPrecise :
    (State.reset.core.fatal = false ∧ issue 0x2F00#16 State.reset = .next (State.reset.fatalWith 0x01#8)) ∧
    issue 0xC000#16 State.reset = .next (State.reset.fatalWith 0x02#8) ∧
    ∃ s : State, s.core.fatal = false ∧ issue 0xA000#16 s = .next (s.fatalWith 0x03#8) :=
  ⟨⟨rfl, eq_next_of_nextOf (by decide)⟩, eq_next_of_nextOf (by decide),
    machine CoreState.reset { Ports.reset with cfgWpm := 0#8 }, rfl, eq_next_of_nextOf (by decide)⟩

theorem witness_CommandsWriteOnlyTheirRegisters :
    (∃ t, exec .ktick (dotAt 61#32 leftIn) = .next t) ∧ (∃ t, exec .kpanic (dotAt 61#32 leftIn) = .next t) ∧
    (∃ t, exec .elapsed (dotAt 61#32 leftIn) = .next t) ∧ (∃ t, exec (.enq 15#4) (dotAt 61#32 leftIn) = .next t) ∧
    ∃ t, exec .tcalc (dotAt 61#32 leftIn) = .next t :=
  ⟨exists_next (by decide), exists_next (by decide), exists_next (by decide), exists_next (by decide),
    exists_next (by decide)⟩

/-- K1 as a step. -/
theorem witness_OnlyKtickEnergizes :
    ∃ s t : State, step s = .next t ∧ s.core.keyed = false ∧ t.core.keyed = true := by
  have hs : (coreOf (step (accessing (.write 0x00#8 0xA000#32) [] { dur20 with opa := 1#32 } leftIn))).map
      CoreState.keyed = some true := by decide
  obtain ⟨c, hc, hk⟩ := Option.map_eq_some_iff.mp hs
  obtain ⟨t, ht, rfl⟩ := Option.map_eq_some_iff.mp hc
  exact ⟨_, t, eq_next_of_nextOf ht, rfl, hk⟩

theorem witness_InterruptsTouchOnlyTheScheduler :
    (∃ t, step (scheduled .timer dotE) = .next t) ∧
    (∃ t, step (scheduled (.access (.isr .port0Rx) (.write 0x00#8 0x2200#32)) dotE) = .next t) ∧
    ∃ t, step (scheduled (.access (.isr .port0Rx) (.write 0x00#8 0x2600#32)) dotE) = .next t :=
  ⟨exists_next (by decide), exists_next (by decide), exists_next (by decide)⟩

theorem witness_ContextsRefuseCommands :
    ((issuedBy (.interrupt (.isr .input))).core.fatal = false ∧ (issuedBy (.interrupt (.isr .input))).issuer ≠ .main ∧
      ∀ k, Instr.ktick ≠ .enq k) ∧
    ((issuedBy (.interrupt .timer)).core.fatal = false ∧ (issuedBy (.interrupt .timer)).issuer ≠ .main ∧
      (issuedBy (.interrupt .timer)).issuer = .interrupt .timer) :=
  ⟨⟨rfl, by decide, fun _ h => by cases h⟩, rfl, by decide, rfl⟩

theorem witness_BusReadReturnsTheRegister :
    (∃ s : State, s.mainAccesses [] (.read 0x01#8) ∧ 0x01 ≤ (0x01#8).toNat ∧ (0x01#8).toNat ≤ 0x17) ∧
    ∃ s : State, s.mainAccesses [] (.read 0x17#8) ∧ 0x01 ≤ (0x17#8).toNat ∧ (0x17#8).toNat ≤ 0x17 :=
  ⟨⟨accessing (.read 0x01#8) [] dotE leftIn, accessing_makes rfl, by decide, by decide⟩,
    accessing (.read 0x17#8) [] dotE leftIn, accessing_makes rfl, by decide, by decide⟩

theorem witness_BusWriteReachesItsRegister :
    (∃ s : State, s.mainAccesses [] (.write 0x01#8 5#32)) ∧ (∃ s : State, s.mainAccesses [] (.write 0x02#8 5#32)) ∧
    (∃ s : State, s.mainAccesses [] (.write 0x00#8 0xABCD4000#32) ∧
      ((0xABCD4000#32).setWidth 16 = 0x3000#16 → s.core.pending ≠ 0#8)) ∧
    ∃ s : State, s.mainAccesses [] (.write 0x00#8 0x3000#32) ∧
      ((0x3000#32).setWidth 16 = 0x3000#16 → s.core.pending ≠ 0#8) :=
  ⟨⟨accessing _ [] dotE leftIn, accessing_makes rfl⟩, ⟨accessing _ [] dotE leftIn, accessing_makes rfl⟩,
    ⟨accessing _ [] dotE leftIn, accessing_makes rfl, by decide⟩,
    accessing _ [] { dotE with pending := 1#8 } leftIn, accessing_makes rfl, by decide⟩

theorem witness_MeaninglessAccessesAreRefused :
    (∃ s : State, s.mainAccesses [] (.read 0x00#8)) ∧
    (∃ s : State, s.mainAccesses [] (.read 0x18#8) ∧ 0x18 ≤ (0x18#8).toNat) ∧
    (∃ s : State, s.mainAccesses [] (.write 0xFF#8 1#32) ∧ 0x18 ≤ (0xFF#8).toNat) ∧
    (∃ s : State, s.mainAccesses [] (.write 0x03#8 1#32) ∧ 0x03 ≤ (0x03#8).toNat ∧ (0x03#8).toNat ≤ 0x17) ∧
    (∃ s : State, s.mainAccesses [] (.write 0x17#8 1#32) ∧ 0x03 ≤ (0x17#8).toNat ∧ (0x17#8).toNat ≤ 0x17) ∧
    (∃ s : State, s.core.fatal = false ∧ s.events = .access .timer (.write 0x00#8 0x2000#32) :: []) ∧
    (∃ s : State, s.core.fatal = false ∧ s.events = .access (.isr .input) (.read 0x03#8) :: []) ∧
    (∃ s : State, s.core.fatal = false ∧ s.events = .access (.isr .input) (.write 0x01#8 1#32) :: [] ∧ 0x01#8 ≠ 0x00#8) ∧
    ∃ s : State, s.core.fatal = false ∧ s.events = .access (.isr .input) (.write 0x00#8 0x4000#32) :: [] ∧
      (0x4000#32).toNat / 4096 % 16 ≠ 2 :=
  ⟨⟨accessing _ [] dotE leftIn, accessing_makes rfl⟩,
    ⟨accessing _ [] dotE leftIn, accessing_makes rfl, by decide⟩,
    ⟨accessing _ [] dotE leftIn, accessing_makes rfl, by decide⟩,
    ⟨accessing _ [] dotE leftIn, accessing_makes rfl, by decide, by decide⟩,
    ⟨accessing _ [] dotE leftIn, accessing_makes rfl, by decide, by decide⟩,
    ⟨scheduled _ dotE, rfl, rfl⟩, ⟨scheduled _ dotE, rfl, rfl⟩, ⟨scheduled _ dotE, rfl, rfl, by decide⟩,
    scheduled _ dotE, rfl, rfl, by decide⟩

theorem witness_DecodeOfEncodeIsIdentity : (Instr.enq 5#4).wellFormed = true ∧ Instr.ktick.wellFormed = true := by decide

theorem witness_OnlyEncodingsDecode : decode 0x2500#16 = .ok (.enq 5#4) := by decide

theorem witness_IllegalWordsAreFatal :
    State.reset.mainMayIssue ∧ (0x0FFF#16).toNat / 4096 = 0 ∧ 0xC ≤ (0xC000#16).toNat / 4096 ∧
    (0xB001#16).toNat % 256 ≠ 0 ∧ ((0x1100#16).toNat / 4096 ≠ 2 ∧ (0x1100#16).toNat / 256 % 16 ≠ 0) :=
  ⟨⟨rfl, rfl⟩, by decide⟩

theorem witness_StepRunsTheDecodedCommand :
    (∃ s : State, s.mainAccesses [] (.write 0x00#8 0x3000#32) ∧ decode ((0x3000#32).setWidth 16) = .ok .wait ∧
      s.core.pending ≠ 0#8) ∧
    (∃ s : State, s.mainAccesses [] (.write 0x00#8 0x3000#32) ∧ decode ((0x3000#32).setWidth 16) = .ok .wait ∧
      s.core.pending = 0#8) ∧
    (∃ s : State, s.mainAccesses [] (.write 0x00#8 0xA000#32) ∧ decode ((0xA000#32).setWidth 16) = .ok .ktick) ∧
    ∃ s : State, s.core.fatal = false ∧ s.events = .access (.isr .port0Rx) (.write 0x00#8 0x2200#32) :: [] ∧
      decode ((0x2200#32).setWidth 16) = .ok (.enq 2#4) :=
  ⟨⟨accessing _ [] { dotE with pending := 1#8 } leftIn, accessing_makes rfl, by decide, by decide⟩,
    ⟨accessing _ [] dotE leftIn, accessing_makes rfl, by decide, by decide⟩,
    ⟨accessing _ [] dotE leftIn, accessing_makes rfl, by decide⟩, scheduled _ dotE, rfl, rfl, by decide⟩

theorem witness_PowerOnResetsTheCore :
    (scheduled .powerOn failed).events = [.powerOn] ∧
    ((dotAt 61#32 leftIn).mainMayIssue ∧ (dotAt 61#32 leftIn).core.fatalSilent) :=
  ⟨rfl, ⟨rfl, rfl⟩, ⟨fun h => absurd h (by decide), fun _ => rfl⟩⟩

theorem witness_OutputsFollowTheState : (dotAt 61#32 leftIn).core.fatal = false := rfl

theorem witness_EnvStepChangesOnlyPorts : (scheduled (.env keyIn) failed).events = [.env keyIn] := rfl

/-- A `Main` about to take this operation. -/
def atOp (op : MainOp) : State := { State.reset with main := ⟨[op], 0, [7#32], []⟩, events := [.main] }

theorem witness_MainRunsItsProgramInOrder :
    (∃ t, step (scheduled .main dotE) = .next t) ∧ (∃ t, step (atOp (.read 0x03#8)) = .next t) ∧
    (∃ t, step (atOp (.write 0x01#8 (.read 0))) = .next t) ∧
    (∃ t, step (atOp (.write 0x00#8 (.const 0x3000#32))) = .next t) ∧
    (∃ t, step (atOp (.assign 2 (.read 0))) = .next t) ∧ (∃ t, step (atOp (.branch (.const 1#32) 5)) = .next t) ∧
    ∃ t, step (atOp (.branch (.var 3) 5)) = .next t :=
  ⟨exists_next (by decide), exists_next (by decide), exists_next (by decide), exists_next (by decide),
    exists_next (by decide), exists_next (by decide), exists_next (by decide)⟩

theorem witness_RunEndsAtTheFirstGoodEnd :
    (∃ t, runToEnd 1 (State.reset.withFetchWord 16 0x1000) = .good t) ∧ (dotAt 61#32 leftIn).core.fatal = false := by
  have ho : (runToEnd 1 (State.reset.withFetchWord 16 0x1000)).observation.isSome = true := by decide
  refine ⟨?_, rfl⟩
  cases h : runToEnd 1 (State.reset.withFetchWord 16 0x1000) <;> rw [h] at ho <;>
    first | exact ⟨_, rfl⟩ | exact absurd ho (by simp [RunEnd.observation])

end Sys2Proof.Tests
end

section
/-! The output ports (10_state.md R51): one equation per port, and `O57`. -/

namespace Sys2Proof.Machine

variable (s : State)

@[simp] theorem State.keyLine_eq : s.keyLine = (s.core.keyed ^^ s.ports.cfgActiveLow) := rfl

@[simp] theorem State.sidetone_eq : s.sidetone = s.core.keyed := rfl

@[simp] theorem State.failSignal_eq : s.failSignal = s.core.fatal := rfl

/-- Only the branch `FATAL = 0` has an equation: in the other, `INDICATOR` is any value (log entry 7). -/
@[simp] theorem State.indicator_of_not_fatal {s : State} (hf : s.core.fatal = false) : s.indicator = s.core.keyed := by
  simp [State.indicator, hf]

/-- Settles O57: each port by its own equation. -/
theorem outputsFollowTheState : Obligations.OutputsFollowTheState := fun s =>
  ⟨s.keyLine_eq, s.sidetone_eq, s.failSignal_eq, State.indicator_of_not_fatal⟩

end Sys2Proof.Machine
end

section
/-! Which words are legal, as numbers (30_encoding.md R96, R97, R105), and `O52`. -/

namespace Sys2Proof

/-- A word put together from its three fields. -/
theorem toNat_append_fields (op kind : BitVec 4) (rsv : BitVec 8) :
    (op ++ kind ++ rsv : Cmd).toNat = op.toNat * 4096 + kind.toNat * 256 + rsv.toNat := by
  rw [BitVec.toNat_append, BitVec.toNat_append, ← Nat.shiftLeft_add_eq_or_of_lt rsv.isLt,
    ← Nat.shiftLeft_add_eq_or_of_lt kind.isLt]
  omega

theorem opField_eq_iff {w : Cmd} {op : BitVec 4} : opField w = op ↔ w.toNat / 4096 = op.toNat := by
  rw [BitVec.toNat_eq, opField_toNat]

theorem kindField_eq_iff {w : Cmd} {kind : BitVec 4} : kindField w = kind ↔ w.toNat / 256 % 16 = kind.toNat := by
  rw [BitVec.toNat_eq, kindField_toNat]

theorem rsvField_eq_iff {w : Cmd} {rsv : BitVec 8} : rsvField w = rsv ↔ w.toNat % 256 = rsv.toNat := by
  rw [BitVec.toNat_eq, rsvField_toNat]

/-- Two words with the same fields are the same word. -/
theorem eq_iff_fields {v w : Cmd} :
    v = w ↔ opField v = opField w ∧ kindField v = kindField w ∧ rsvField v = rsvField w := by
  refine ⟨fun h => h ▸ ⟨rfl, rfl, rfl⟩, fun ⟨ho, hk, hr⟩ => BitVec.eq_of_toNat_eq ?_⟩
  rw [toNat_of_fields v, toNat_of_fields w, ho, hk, hr]

theorem legalKind_iff {kind : BitVec 4} : legalKind kind = true ↔ kind.toNat < 6 := by
  rw [legalKind, decide_eq_true_iff]
  rfl

theorem isEnqWord_iff {w : Cmd} : isEnqWord w = true ↔ w.toNat / 4096 = 2 ∧ w.toNat % 256 = 0 := by
  rw [isEnqWord, Bool.and_eq_true, decide_eq_true_iff, decide_eq_true_iff, opField_eq_iff, rsvField_eq_iff]
  rfl

/-- The fixed bits of the `ENQ` row are `OP` and `RSV`. -/
theorem and_enqMask_eq_iff {w : Cmd} :
    w &&& 0xF0FF#16 = 0x2000#16 ↔ w.toNat / 4096 = 2 ∧ w.toNat % 256 = 0 := by
  have hop : opField (w &&& 0xF0FF#16) = opField w := BitVec.extractLsb'_and.trans BitVec.and_allOnes
  have hkind : kindField (w &&& 0xF0FF#16) = 0#4 := BitVec.extractLsb'_and.trans BitVec.and_zero
  have hrsv : rsvField (w &&& 0xF0FF#16) = rsvField w := BitVec.extractLsb'_and.trans BitVec.and_allOnes
  rw [eq_iff_fields, hop, hkind, hrsv, opField_eq_iff, rsvField_eq_iff]
  exact and_congr_right fun _ => and_iff_right rfl

/-- The legal words by their fields: the checks of 30_encoding.md R96, none of which applies. -/
theorem decode_isOk_iff {w : Cmd} : (∃ i, decode w = .ok i) ↔
    (1 ≤ w.toNat / 4096 ∧ w.toNat / 4096 < 0xC) ∧ w.toNat % 256 = 0 ∧
      (w.toNat / 4096 ≠ 2 → w.toNat / 256 % 16 = 0) ∧ (w.toNat / 4096 = 2 → w.toNat / 256 % 16 < 6) := by
  have hop : opField w = opEnq ↔ w.toNat / 4096 = 2 := opField_eq_iff
  have hkind : kindField w = 0#4 ↔ w.toNat / 256 % 16 = 0 := kindField_eq_iff
  have hrsv : rsvField w = 0#8 ↔ w.toNat % 256 = 0 := rsvField_eq_iff
  have hlegal : legalKind (kindField w) = true ↔ w.toNat / 256 % 16 < 6 := by rw [legalKind_iff, kindField_toNat]
  have hselect := selectOp_eq_none_iff (opField w) (kindField w)
  rw [opField_toNat] at hselect
  rw [ne_eq, ← hop, ← hkind, ← hrsv, ← hlegal]
  constructor
  · rintro ⟨i, hi⟩
    obtain ⟨hs, hr, hk, hl⟩ := decode_eq_ok hi
    have hrange := mt hselect.mpr (by simp [hs])
    exact ⟨by omega, hr, hk, hl⟩
  · rintro ⟨hs, hr, hk, hl⟩
    cases hd : decode w with
    | ok i => exact ⟨i, rfl⟩
    | error e =>
      rcases decode_eq_error hd with ⟨-, h⟩ | ⟨-, h⟩ | ⟨-, ho, h⟩ | ⟨-, ho, -, h⟩
      · have := hselect.mp h
        omega
      · exact absurd hr h
      · exact absurd (hk ho) h
      · exact absurd (hl ho) (by simp [h])

/-- An illegal word raises code 1 when it is an `ENQ` word, and code 2 otherwise (30_encoding.md R97, R98). -/
theorem decode_error_code {w : Cmd} {e : DecodeError} (h : decode w = .error e) :
    e.code = if isEnqWord w then Config.fcEventKind else Config.fcIllegalCmd := by
  rcases decode_eq_error h with ⟨rfl, hs⟩ | ⟨rfl, hr⟩ | ⟨rfl, ho, -⟩ | ⟨rfl, ho, hr, -⟩
  · have ho : opField w ≠ opEnq := fun ho => by simp [selectOp, ho, opEnq] at hs
    simp [isEnqWord, ho, DecodeError.code]
  · simp [isEnqWord, hr, DecodeError.code]
  · simp [isEnqWord, ho, DecodeError.code]
  · simp [isEnqWord, ho, hr, DecodeError.code]

/-- The legal words row by row: `ENQ` has six, every other command one. -/
theorem decode_isOk_iff_words {w : Cmd} : (∃ i, decode w = .ok i) ↔
    w = 0x1000#16 ∨ (w &&& 0xF0FF#16 = 0x2000#16 ∧ w.toNat / 256 % 16 < 6) ∨
      w ∈ [0x3000#16, 0x4000#16, 0x5000#16, 0x6000#16, 0x7000#16, 0x8000#16, 0x9000#16, 0xA000#16, 0xB000#16] := by
  have := w.isLt
  rw [decode_isOk_iff, and_enqMask_eq_iff]
  simp only [List.mem_cons, List.not_mem_nil, or_false, BitVec.toNat_eq, BitVec.toNat_ofNat]
  omega

/-- Settles O52: the `ENQ` row by its mask, each of the ten others by its one word. -/
theorem legalWordsFitTheTable : Obligations.LegalWordsFitTheTable := by
  intro w
  have hmask : w &&& 0xFFFF#16 = w := BitVec.and_allOnes
  rw [decode_isOk_iff_words]
  simp [opcodeTable, hmask]

end Sys2Proof
end

section
/-! Issuing an illegal word (30_encoding.md R96, 60_exceptions.md R202, R204), `O53` and `O3`. -/

namespace Sys2Proof.Machine

/-- Issued by `Main`, or by an `Isr` as an `ENQ` word, an illegal word makes the fatal entry. -/
theorem issue_illegal {w : Cmd} {s : State} (hw : ¬ ∃ i, decode w = .ok i) (hf : s.core.fatal = false)
    (hi : s.issuer = .main ∨ (s.issuer.mayEnqueue = true ∧ isEnqWord w = true)) :
    issue w s = .next (s.fatalWith (if isEnqWord w then Config.fcEventKind else Config.fcIllegalCmd)) := by
  cases hd : decode w with
  | ok i => exact absurd ⟨i, hd⟩ hw
  | error e =>
    have hissue : issue w s = illegalWord e w s := by rw [issue, hd]
    rw [hissue, illegalWord, unlessHalted_running hf, if_pos (by simpa using hi), raiseFatal_eq, decode_error_code hd]

/-- Settles O53: none of the three families is a legal word or an `ENQ` word with `RSV = 0`; the legal words are listed by
their fields. -/
theorem illegalWordsAreFatal : Obligations.IllegalWordsAreFatal := by
  refine ⟨fun w s hm hw => ?_, fun w => ?_⟩
  · have hillegal : ¬ ∃ i, decode w = .ok i := by rw [decode_isOk_iff]; omega
    have hnotEnq : ¬ isEnqWord w = true := by rw [isEnqWord_iff]; omega
    rw [issue_illegal hillegal hm.1 (.inl hm.2), if_neg hnotEnq]
    rfl
  · have := w.isLt
    rw [decode_isOk_iff]
    simp only [List.mem_cons, List.not_mem_nil, or_false, BitVec.toNat_eq, BitVec.toNat_ofNat]
    omega

/-- Settles O3: the word is an `ENQ` word, but not a legal one. -/
theorem invalidEventKindIsFatal : Obligations.InvalidEventKindIsFatal := by
  intro k s hk hs
  have hnum : (0x2#4 ++ k ++ 0x00#8 : Cmd).toNat = 0x2000 + k.toNat * 256 := toNat_append_fields _ _ _
  have := k.isLt
  have hillegal : ¬ ∃ i, decode (0x2#4 ++ k ++ 0x00#8) = .ok i := by rw [decode_isOk_iff, hnum]; omega
  have henq : isEnqWord (0x2#4 ++ k ++ 0x00#8) = true := by rw [isEnqWord_iff, hnum]; omega
  rw [issue_illegal hillegal hs.1 (.inr ⟨mayEnqueue_iff.mpr hs.2, henq⟩), if_pos henq]
  rfl

end Sys2Proof.Machine
end

section
/-! The words of `ENQ` (30_encoding.md R93, R98). -/

namespace Sys2Proof

theorem opField_append (op kind : BitVec 4) (rsv : BitVec 8) : opField (op ++ kind ++ rsv) = op := by
  rw [opField_eq_iff, toNat_append_fields]
  omega

theorem kindField_append (op kind : BitVec 4) (rsv : BitVec 8) : kindField (op ++ kind ++ rsv) = kind := by
  rw [kindField_eq_iff, toNat_append_fields]
  omega

theorem rsvField_append (op kind : BitVec 4) (rsv : BitVec 8) : rsvField (op ++ kind ++ rsv) = rsv := by
  rw [rsvField_eq_iff, toNat_append_fields]
  omega

/-- With `OP` = 2 and no reserved bit set, only the check of the kind is left (30_encoding.md R96). -/
theorem decode_enqWord (kind : BitVec 4) :
    decode (0x2#4 ++ kind ++ 0x00#8) = if legalKind kind then .ok (.enq kind) else .error .invalidKind := by
  have hselect : selectOp 0x2#4 kind = some (.enq kind) := rfl
  rw [decode, opField_append, kindField_append, rsvField_append, hselect]
  cases legalKind kind <;> rfl

end Sys2Proof
end

section
/-! What each scheduler command answers where it may be issued (40_scheduler.md R112, R113, R119 to R123), and `O2`, `O1`,
`O7`, `O8`, `O9`, `O10`. -/

namespace Sys2Proof.Machine

variable {s : State}

theorem exec_sinit (h : s.mainMayIssue) : exec .sinit s = .next (s.withCore s.core.schedulerInit) :=
  asMain_allowed h

theorem exec_enq {kind : BitVec 4} (hk : legalKind kind = true) (h : s.enqMayIssue) :
    exec (.enq kind) s = .next (s.withCore (s.core.enqueue kind.toNat)) :=
  (asEnqueuer_allowed h).trans (if_pos hk)

theorem exec_gtick (h : s.mainMayIssue) : exec .gtick s = .next (s.withCore (s.core.setRes s.core.tick)) :=
  asMain_allowed h

theorem exec_elapsed (h : s.mainMayIssue) :
    exec .elapsed s = .next (s.withCore (s.core.setRes (elapsedTicks s.core.opa s.core.opb))) :=
  asMain_allowed h

theorem exec_tgt (h : s.mainMayIssue) :
    exec .tgt s = .next (s.withCore (s.core.setRes (boolWord (isTickGt s.core.opa s.core.opb)))) :=
  asMain_allowed h

theorem exec_tgte (h : s.mainMayIssue) :
    exec .tgte s = .next (s.withCore (s.core.setRes (boolWord (isTickGte s.core.opa s.core.opb)))) :=
  asMain_allowed h

/-- The word of a test is told by any statement the test decides. -/
theorem boolWord_eq_ite {b : Bool} {P : Prop} [Decidable P] (h : b = true ↔ P) :
    boolWord b = if P then 1#32 else 0#32 :=
  if_congr h rfl rfl

/-- The strict test in the integers (40_scheduler.md R122). -/
theorem isTickGt_iff_toInt (a b : Tick) :
    isTickGt a b = true ↔
      0 < ((a.toNat : Int) - b.toNat) % 2 ^ 32 ∧ ((a.toNat : Int) - b.toNat) % 2 ^ 32 < 2 ^ 31 := by
  rw [isTickGt_iff, ← elapsedTicks_toInt, elapsedTicks]
  omega

/-- The non-strict test in the integers (40_scheduler.md R123). -/
theorem isTickGte_iff_toInt (a b : Tick) :
    isTickGte a b = true ↔ ((a.toNat : Int) - b.toNat) % 2 ^ 32 < 2 ^ 31 := by
  rw [isTickGte_iff, ← elapsedTicks_toInt, elapsedTicks]
  omega

/-- Settles O2: the words by the one check left to them, the bits by `setEvent_getLsbD`. -/
theorem enqSetsExactlyItsBit : Obligations.EnqSetsExactlyItsBit := by
  refine ⟨fun k hk => ?_, fun k hk => ⟨?_, rfl⟩, fun k s hk hs => ?_⟩
  · rw [decode_enqWord, if_pos (legalKind_iff.mpr hk)]
  · rw [decode_enqWord, if_neg (mt legalKind_iff.mp (by omega))]
  · exact ⟨setEvent s.core.pending k.toNat, exec_enq (legalKind_iff.mpr hk) hs, setEvent_getLsbD _ _⟩

/-- Settles O1: the two writes of `schedulerInit`. -/
theorem sinitZeroesTickAndPending : Obligations.SinitZeroesTickAndPending :=
  ⟨rfl, fun _ h => exec_sinit h⟩

/-- Settles O7: the one write of `setRes`. -/
theorem gtickReadsTheTick : Obligations.GtickReadsTheTick :=
  ⟨rfl, fun _ h => exec_gtick h⟩

/-- Settles O8: subtraction of words is subtraction of integers modulo 2^32. -/
theorem elapsedIsModularDifference : Obligations.ElapsedIsModularDifference :=
  ⟨rfl, fun s h => ⟨elapsedTicks s.core.opa s.core.opb, exec_elapsed h, elapsedTicks_toInt _ _⟩⟩

/-- Settles O9: the strict test in the integers. -/
theorem tgtIsStrictHalfRangeTest : Obligations.TgtIsStrictHalfRangeTest :=
  ⟨rfl, fun s h => by rw [exec_tgt h, boolWord_eq_ite (isTickGt_iff_toInt s.core.opa s.core.opb)]; rfl⟩

/-- Settles O10: the non-strict test in the integers. -/
theorem tgteIsHalfRangeTest : Obligations.TgteIsHalfRangeTest :=
  ⟨rfl, fun s h => by rw [exec_tgte h, boolWord_eq_ite (isTickGte_iff_toInt s.core.opa s.core.opb)]; rfl⟩

end Sys2Proof.Machine
end

section
/-! The timer step (40_scheduler.md R110, 60_exceptions.md R206), and `O14`. -/

namespace Sys2Proof.Machine

variable {s : State} {rest : List Event}

theorem step_timer (h : s.events = .timer :: rest) (hf : s.core.fatal = false) :
    step s = .next ((s.handlerFetched rest .timer).withCore s.core.timerStep) :=
  (step_event h).trans (unlessHalted_running hf)

theorem step_timer_halted (h : s.events = .timer :: rest) (hf : s.core.fatal = true) :
    step s = .fault (.halted s.core.fcode) :=
  (step_event h).trans (unlessHalted_halted hf)

theorem timerStep_tick_toNat (c : CoreState) : c.timerStep.tick.toNat = (c.tick.toNat + 1) % 2 ^ 32 := by
  rw [CoreState.timerStep_tick, BitVec.toNat_add]
  rfl

/-- Settles O14: the two writes of `timerStep` outside the fatal state, the halt in it. -/
theorem timerStepAdvancesTick : Obligations.TimerStepAdvancesTick := by
  refine fun s rest he => ⟨fun hf => ?_, step_timer_halted he⟩
  exact ⟨s.core.timerStep.tick, s.core.timerStep.pending, step_timer he hf, timerStep_tick_toNat s.core,
    setEvent_getLsbD s.core.pending evTick⟩

end Sys2Proof.Machine
end

section
/-! A bank by its five values. -/

namespace Sys2Proof

variable {α : Type}

@[simp] theorem Bank.get_ofFn (f : Element → α) (e : Element) : (Bank.ofFn f).get e = f e := by
  cases e <;> rfl

theorem Bank.all_eq_true_iff {p : α → Bool} {b : Bank α} :
    b.all p = true ↔ ∀ e : Element, p (b.get e) = true := by
  simp only [Bank.all, Bool.and_eq_true]
  refine ⟨fun ⟨⟨⟨⟨hdot, hdash⟩, hes⟩, hls⟩, hws⟩ e => ?_, fun h => ?_⟩
  · cases e <;> assumption
  · exact ⟨⟨⟨⟨h .dot, h .dash⟩, h .elementSpace⟩, h .letterSpace⟩, h .wordSpace⟩

end Sys2Proof
end

section
/-! The exact value of a binary32 pattern and the valid configurations (41_timing.md R141, R155), and `O19`. -/

namespace Sys2Proof.Machine

variable {s : Word}

theorem value32_of_finite (h : binary32Finite s) : value32 s = some (scaledValue s) := by
  obtain ⟨v, hv⟩ : ∃ v, value32 s = some v := ⟨_, if_neg h⟩
  rw [scaledValue, hv, Option.getD_some]

theorem value32_of_not_finite (h : ¬ binary32Finite s) : value32 s = none :=
  if_pos (not_not.mp h)

/-- The power of two of a normal pattern, in units of 2^-149. -/
theorem two_zpow_exponent {e : Nat} (he : e ≠ 0) : (2 : ℚ) ^ ((e : ℤ) - 150) = 2 ^ (e - 1) / 2 ^ 149 := by
  obtain ⟨n, rfl⟩ := Nat.exists_eq_succ_of_ne_zero he
  have hexp : ((n.succ : ℕ) : ℤ) - 150 = (n : ℤ) - (149 : ℕ) := by push_cast; ring
  rw [hexp, zpow_sub₀ two_ne_zero, zpow_natCast, zpow_natCast, Nat.succ_sub_one]

/-- The model's whole multiple of 2^-149 is the rational value of 41_timing.md R155. -/
theorem binary32Value_eq_scaledValue (h : binary32Finite s) : binary32Value s = scaledValue s / 2 ^ 149 := by
  have hv : value32 s = some (scaledValue s) := value32_of_finite h
  rw [value32, if_neg h, Option.some.injEq] at hv
  rw [← hv, binary32Value]
  generalize (s.extractLsb' 0 23).toNat = f
  by_cases he : (s.extractLsb' 23 8).toNat = 0
  · rw [if_pos he, if_pos he]
    split_ifs <;> push_cast <;> ring
  · rw [if_neg he, if_neg he, two_zpow_exponent he]
    split_ifs <;> push_cast <;> ring

theorem scaledValue_of_lt (h : s.toNat < 0x7F800000) : scaledValue s = magnitude s.toNat := by
  rw [scaledValue, value32_nonneg h, Option.getD_some]

theorem binary32Finite_of_lt (h : s.toNat < 0x7F800000) : binary32Finite s := by
  rw [binary32Finite, expField_toNat]
  omega

/-- Between the last finite non-negative pattern and the sign bit stand infinity and the NaNs. -/
theorem not_binary32Finite_of_between (h : 0x7F800000 ≤ s.toNat) (h' : s.toNat < 2 ^ 31) : ¬ binary32Finite s := by
  rw [binary32Finite, expField_toNat]
  omega

/-- A valid scale is finite and between the limits, in units of 2^-149. -/
theorem validScale_iff_scaledValue : validScale s = true ↔ binary32Finite s ∧
    scaledValue Config.scaleMin ≤ scaledValue s ∧ scaledValue s ≤ scaledValue Config.scaleMax := by
  by_cases h : binary32Finite s
  · simp [validScale, value32_of_finite h, h]
  · simp [validScale, value32_of_not_finite h, h]

/-- A valid scale by its rational value. -/
theorem validScale_iff_binary32Value : validScale s = true ↔ binary32Finite s ∧
    binary32Value Config.scaleMin ≤ binary32Value s ∧ binary32Value s ≤ binary32Value Config.scaleMax := by
  rw [validScale_iff_scaledValue]
  refine and_congr_right fun h => ?_
  have hmin : binary32Finite Config.scaleMin := binary32Finite_of_lt (by decide)
  have hmax : binary32Finite Config.scaleMax := binary32Finite_of_lt (by decide)
  have hunit : (0 : ℚ) < 2 ^ 149 := by positivity
  rw [binary32Value_eq_scaledValue h, binary32Value_eq_scaledValue hmin, binary32Value_eq_scaledValue hmax,
    div_le_div_iff_of_pos_right hunit, div_le_div_iff_of_pos_right hunit, Int.cast_le, Int.cast_le]

/-- A valid scale by its pattern: non-negative finite patterns order as their values, and no other pattern is valid. -/
theorem validScale_iff_toNat : validScale s = true ↔ 0x3DCCCCCD ≤ s.toNat ∧ s.toNat ≤ 0x41200000 := by
  have hmin : scaledValue Config.scaleMin = magnitude 0x3DCCCCCD := scaledValue_of_lt (by decide)
  have hmax : scaledValue Config.scaleMax = magnitude 0x41200000 := scaledValue_of_lt (by decide)
  rw [validScale_iff_scaledValue, hmin, hmax]
  rcases lt_or_ge s.toNat 0x7F800000 with hlt | hge
  · rw [scaledValue_of_lt hlt, Nat.cast_le, Nat.cast_le, magnitude_le_iff, magnitude_le_iff]
    exact and_iff_right (binary32Finite_of_lt hlt)
  · refine iff_of_false (fun ⟨hfin, hle, _⟩ => ?_) (by omega)
    have hneg : 2 ^ 31 ≤ s.toNat := by
      by_contra hpos
      exact not_binary32Finite_of_between hge (by omega) hfin
    have hv : scaledValue s ≤ 0 := value32_negative hneg (value32_of_finite hfin)
    have hpos : magnitude 0 < magnitude 0x3DCCCCCD := magnitude_strictMono (by decide)
    omega

theorem validConfig_iff {wpm : BitVec 8} {scale : Bank Word} : validConfig wpm scale = true ↔
    (1 ≤ wpm.toNat ∧ wpm.toNat ≤ 100) ∧ ∀ e : Element, validScale (scale.get e) = true := by
  rw [validConfig, Bool.and_eq_true, Bank.all_eq_true_iff, validWpm, Bool.and_eq_true, decide_eq_true_iff,
    decide_eq_true_iff]
  rfl

/-- Settles O19: both forms scale by scale. -/
theorem validityByValueAndByPattern : Obligations.ValidityByValueAndByPattern := fun _ _ =>
  ⟨validConfig_iff.trans (and_congr_right fun _ => forall_congr' fun _ => validScale_iff_binary32Value),
    validConfig_iff.trans (and_congr_right fun _ => forall_congr' fun _ => validScale_iff_toNat)⟩

end Sys2Proof.Machine
end

section
/-! The calculator as exact rational arithmetic (41_timing.md R143), and `O20`. -/

namespace Sys2Proof.Machine

variable {wpm : BitVec 8} {scale : Bank Word}

theorem binary32Value_scaleMax : binary32Value Config.scaleMax = 10 := by
  have hfin : binary32Finite Config.scaleMax := binary32Finite_of_lt (by decide)
  have hv : scaledValue Config.scaleMax = 10 * 2 ^ 149 := by decide
  rw [binary32Value_eq_scaledValue hfin, hv]
  norm_num

theorem binary32Value_scaleMin_pos : 0 < binary32Value Config.scaleMin := by
  have hfin : binary32Finite Config.scaleMin := binary32Finite_of_lt (by decide)
  have hv : 0 < scaledValue Config.scaleMin := by decide
  rw [binary32Value_eq_scaledValue hfin]
  positivity

/-- The model's integer division rounds the exact product (00_scope.md R26). -/
theorem durationTicks_eq_floor {s : Word} (k : Nat) (hw : 0 < wpm.toNat) (hs : binary32Finite s) :
    durationTicks k wpm s = ⌊(k : ℚ) * (60000 / (wpm.toNat * 50)) * binary32Value s + 1 / 2⌋ := by
  rw [durationTicks, roundDiv_eq_floor _ _ (by positivity), binary32Value_eq_scaledValue hs]
  congr 2
  push_cast
  ring

theorem exactDuration_nonneg (h : validConfig wpm scale = true) (e : Element) : 0 ≤ exactDuration e wpm scale := by
  obtain ⟨-, hmin, -⟩ := validScale_iff_binary32Value.mp ((validConfig_iff.mp h).2 e)
  have hs : 0 < binary32Value (scale.get e) := binary32Value_scaleMin_pos.trans_le hmin
  unfold exactDuration
  positivity

/-- A unit is at most 1200 ticks and a scale at most 10. -/
theorem exactDuration_le (h : validConfig wpm scale = true) (e : Element) :
    exactDuration e wpm scale ≤ Config.unitMultiplier e * 1200 * 10 := by
  obtain ⟨-, hmin, hmax⟩ := validScale_iff_binary32Value.mp ((validConfig_iff.mp h).2 e)
  have hpos : 0 ≤ binary32Value (scale.get e) := (binary32Value_scaleMin_pos.trans_le hmin).le
  have hw : (1 : ℚ) ≤ wpm.toNat := by exact_mod_cast (validConfig_wpm h).1
  have hunit : (60000 : ℚ) / (wpm.toNat * 50) ≤ 1200 := by
    rw [div_le_iff₀ (by positivity)]
    linarith
  rw [binary32Value_scaleMax] at hmax
  unfold exactDuration
  gcongr

/-- A word holds the rounded duration: it is not negative and far below 2^32. -/
theorem calcDurations_toNat (h : validConfig wpm scale = true) (e : Element) :
    (((calcDurations wpm scale).get e).toNat : ℤ) = ⌊exactDuration e wpm scale + 1 / 2⌋ := by
  have hfin : binary32Finite (scale.get e) := (validScale_iff_binary32Value.mp ((validConfig_iff.mp h).2 e)).1
  have hlow : 0 ≤ ⌊exactDuration e wpm scale + 1 / 2⌋ :=
    Int.floor_nonneg.mpr (by linarith [exactDuration_nonneg h e])
  have hk : (Config.unitMultiplier e : ℚ) ≤ 7 := by cases e <;> norm_num [Config.unitMultiplier]
  have hhigh : ⌊exactDuration e wpm scale + 1 / 2⌋ < 2 ^ 32 :=
    Int.floor_lt.mpr (by push_cast; linarith [exactDuration_le h e])
  rw [calcDurations, Bank.get_ofFn, calcElement, durationTicks_eq_floor _ (validConfig_wpm h).1 hfin, ← exactDuration,
    BitVec.toNat_ofInt]
  omega

theorem unitMultiplier_eq_getD (e : Element) : (Config.unitMultiplier e : ℚ) = [1, 3, 1, 3, 7].getD e.index 0 := by
  cases e <;> simp [Config.unitMultiplier, Element.index]

/-- Settles O20: the rounded exact duration, its multiplier read off the list `K`. -/
theorem durationsRoundTheExactProduct : Obligations.DurationsRoundTheExactProduct := by
  intro wpm scale h e
  rw [calcDurations_toNat h e, exactDuration, unitMultiplier_eq_getD]

end Sys2Proof.Machine
end

section
/-! `TCALC` and the cache refresh of `KTICK` where `Main` may issue them (41_timing.md R144, R145, R149,
42_keyer.md R163), and `O18`, `O24`. -/

namespace Sys2Proof.Machine

variable {s : State}

theorem exec_tcalc_valid (h : s.mainMayIssue) (hv : s.configValid) :
    exec .tcalc s = .next (s.withCore (s.core.setTres (calcDurations s.ports.cfgWpm s.ports.cfgScale))) :=
  (asMain_allowed h).trans (if_pos hv)

theorem exec_tcalc_invalid (h : s.mainMayIssue) (hv : ¬ s.configValid) :
    exec .tcalc s = .next (s.fatalWith Config.fcTimingRange) :=
  (asMain_allowed h).trans (if_neg hv)

/-- Settles O18: the two branches of `TCALC`, the values by `calcDurations_toNat`. -/
theorem tcalcWritesResultsOrIsFatal : Obligations.TcalcWritesResultsOrIsFatal :=
  ⟨rfl, fun _ h => ⟨fun hv => ⟨_, exec_tcalc_valid h hv, calcDurations_toNat hv⟩, exec_tcalc_invalid h⟩⟩

theorem refreshDurations_of_key (hk : ¬ s.keyDiffers) : refreshDurations s.ports s.core = some s.core :=
  if_neg (mt (cacheStale_iff s).mp hk)

theorem refreshDurations_of_valid (hk : s.keyDiffers) (hv : s.configValid) :
    refreshDurations s.ports s.core = some (s.core.fillCache s.ports.cfgWpm s.ports.cfgScale) :=
  (if_pos ((cacheStale_iff s).mpr hk)).trans (if_pos hv)

theorem refreshDurations_of_invalid (hk : s.keyDiffers) (hv : ¬ s.configValid) :
    refreshDurations s.ports s.core = none :=
  (if_pos ((cacheStale_iff s).mpr hk)).trans (if_neg hv)

theorem exec_ktick_of_refresh_none (h : s.mainMayIssue) (hr : refreshDurations s.ports s.core = none) :
    exec .ktick s = .next (s.fatalWith Config.fcTimingRange) :=
  (asMain_allowed h).trans (by rw [hr]; rfl)

theorem exec_ktick_of_refresh_some {c : CoreState} (h : s.mainMayIssue)
    (hr : refreshDurations s.ports s.core = some c) :
    exec .ktick s = .next (s.withCore (keyerTick c.now s.ports c)) :=
  (asMain_allowed h).trans (by rw [hr])

/-- After the refresh the keyer's work leaves the cache and `FATAL` alone. -/
theorem exec_ktick_keeps_refreshed_cache {c : CoreState} (h : s.mainMayIssue)
    (hr : refreshDurations s.ports s.core = some c) :
    ∃ t : State, exec .ktick s = .next t ∧ t.core.fatal = c.fatal ∧
      t.core.dur = c.dur ∧ t.core.cwpm = c.cwpm ∧ t.core.cscale = c.cscale := by
  obtain ⟨-, -, -, -, -, -, hfatal, -, hdur, -, hcwpm, hcscale⟩ := keyerTick_frame c.now s.ports c
  exact ⟨_, exec_ktick_of_refresh_some h hr, hfatal, hdur, hcwpm, hcscale⟩

/-- Settles O24: the three answers of the refresh, each carried through the rest of `KTICK`. -/
theorem ktickRefreshesTheCache : Obligations.KtickRefreshesTheCache := by
  refine fun s h => ⟨fun hk hv => ?_, fun hk hv => ?_, fun hk => ?_⟩
  · exact exec_ktick_of_refresh_none h (refreshDurations_of_invalid hk hv)
  · obtain ⟨t, ht, -, hcache⟩ := exec_ktick_keeps_refreshed_cache h (refreshDurations_of_valid hk hv)
    exact ⟨t, ht, hcache⟩
  · obtain ⟨t, ht, hfatal, hcache⟩ := exec_ktick_keeps_refreshed_cache h (refreshDurations_of_key hk)
    exact ⟨t, ht, hfatal.trans h.1, hcache⟩

end Sys2Proof.Machine
end

section
/-! The keyer's commands where `Main` may issue them: what `KINIT` and `KPANIC` answer (42_keyer.md R161, R180), which state
`KTICK` ends in and what it may write (R165, R166, R169), and `O25`, `O26`, `O27`. -/

namespace Sys2Proof.Machine

variable {s : State}

theorem exec_kinit (h : s.mainMayIssue) : exec .kinit s = .next (s.withCore s.core.keyerInit) :=
  asMain_allowed h

theorem exec_kpanic (h : s.mainMayIssue) : exec .kpanic s = .next (s.withCore s.core.panic) :=
  asMain_allowed h

/-- Settles O25: the writes of `keyerInit`. -/
theorem kinitEmptiesTheKeyer : Obligations.KinitEmptiesTheKeyer :=
  ⟨rfl, fun _ h => exec_kinit h⟩

/-- Settles O26: the two writes of `panic`. -/
theorem kpanicSilencesAtOnce : Obligations.KpanicSilencesAtOnce :=
  ⟨rfl, fun _ h => exec_kpanic h⟩

/-- The next state in the input ports themselves (42_keyer.md R165, R166). -/
theorem nextState_eq_inputs (cur : KState) (p : Ports) :
    nextState cur p =
      (if p.inSk then KState.on
       else if p.inL ∧ p.inR then cur
       else if (if p.cfgInvert then p.inR else p.inL) then KState.dots
       else if (if p.cfgInvert then p.inL else p.inR) then KState.dashes
       else KState.off) :=
  if_congr Iff.rfl rfl (if_congr Bool.and_eq_true_iff rfl rfl)

/-- `STATUS[1:0]` is the encoding of `KSTATE` (10_state.md R48). -/
theorem CoreState.status_extractLsb'_kstate (c : CoreState) : c.status.extractLsb' 0 2 = c.kstate.code := by
  rw [CoreState.status, BitVec.extractLsb'_setWidth_of_le (by decide),
    BitVec.extractLsb'_append_eq_of_add_le (Nat.le_refl 2), BitVec.extractLsb'_eq_self]

/-- The refresh answers registers where the key matches or the configuration is valid (41_timing.md R149). -/
theorem exists_refreshDurations_eq_some (h : ¬ s.keyDiffers ∨ s.configValid) :
    ∃ c, refreshDurations s.ports s.core = some c := by
  by_cases hk : s.keyDiffers
  · exact ⟨_, refreshDurations_of_valid hk (h.resolve_left (not_not_intro hk))⟩
  · exact ⟨_, refreshDurations_of_key hk⟩

/-- The refresh and the keyer's work together write the keyer's registers and the cache, and end in the next state. -/
theorem keyerTick_of_refresh {p : Ports} {c d : CoreState} (h : refreshDurations p c = some d) (now : Tick) :
    (keyerTick now p d).kstate = nextState c.kstate p ∧ (keyerTick now p d).fatal = c.fatal ∧
    keyerTick now p d = { c with
      kstate := (keyerTick now p d).kstate, estart := (keyerTick now p d).estart, edur := (keyerTick now p d).edur,
      elock := (keyerTick now p d).elock, panicked := (keyerTick now p d).panicked, keyed := (keyerTick now p d).keyed,
      dur := (keyerTick now p d).dur, cwpm := (keyerTick now p d).cwpm, cscale := (keyerTick now p d).cscale } := by
  obtain ⟨dur, cwpm, cscale, rfl⟩ : ∃ dur cwpm cscale, d = { c with dur, cwpm, cscale } :=
    ⟨_, _, _, refreshDurations_frame h⟩
  obtain ⟨hkstate, htick, hpending, hopa, hopb, hres, hfatal, hfcode, -, htres, -, -⟩ :=
    keyerTick_frame now p { c with dur, cwpm, cscale }
  exact ⟨hkstate, hfatal, CoreState.ext_fields htick hpending hopa hopb hres rfl rfl rfl rfl rfl rfl hfatal hfcode
    rfl htres rfl rfl⟩

/-- Settles O27: `KTICK` is the keyer's work on the refreshed registers. -/
theorem ktickCompletesInTheNextState : Obligations.KtickCompletesInTheNextState := by
  intro s h hc
  obtain ⟨c, hr⟩ := exists_refreshDurations_eq_some hc
  obtain ⟨hkstate, hfatal, hframe⟩ := keyerTick_of_refresh hr c.now
  exact ⟨_, exec_ktick_of_refresh_some h hr, hfatal.trans h.1, hkstate.trans (nextState_eq_inputs _ _),
    CoreState.status_extractLsb'_kstate _, congrArg s.withCore hframe⟩

end Sys2Proof.Machine
end

section
/-! The fatal state: who steps in it, what it shows, and what its entry writes (60_exceptions.md R204 to R207), and `O40`,
`O41`, `O42`. -/

namespace Sys2Proof.Machine

variable {s t : State} {rest : List Event}

theorem step_main_halted (h : s.events = .main :: rest) (hf : s.core.fatal = true) :
    step s = .fault (.halted s.core.fcode) :=
  (step_event h).trans (unlessHalted_halted hf)

theorem step_access_halted {k : Handler} {op : BusOp} (h : s.events = .access k op :: rest)
    (hf : s.core.fatal = true) : step s = .fault (.halted s.core.fcode) :=
  (step_access h).trans (unlessHalted_halted hf)

/-- `Env` steps in every state, the fatal one included (60_exceptions.md R203, R206). -/
theorem step_env {p : Ports} (h : s.events = .env p :: rest) :
    step s = .next { (s.began rest).asAgent .env with ports := p } :=
  step_event h

/-- Everything a step from the fatal state can do: every other step of `step_cases` needs `FATAL = 0`, an issue by
`issue_frame`. -/
theorem step_cases_of_fatal (hf : s.core.fatal = true) (h : step s = .next t) :
    (∃ rest p, s.events = .env p :: rest ∧ t = { (s.began rest).asAgent .env with ports := p }) ∨
    (∃ rest, s.events = .powerOn :: rest ∧ t = powerOnReset (s.began rest)) := by
  have hrun : ¬ s.core.fatal = false := ne_false_of_eq_true hf
  rcases step_cases h with ⟨hr, -⟩ | ⟨_, -, hr, -⟩ | ⟨_, _, _, -, hi⟩ | ⟨_, _, _, ⟨hr, -⟩, -⟩ | ⟨_, _, _, ⟨hr, -⟩, -⟩ |
    ⟨_, -, hr, -⟩ | ⟨_, _, _, -, hi⟩ | henv | hpower
  · exact absurd hr hrun
  · exact absurd hr hrun
  · exact absurd (issue_frame hi).1 hrun
  · exact absurd hr hrun
  · exact absurd hr hrun
  · exact absurd hr hrun
  · exact absurd (issue_frame hi).1 hrun
  · exact .inl henv
  · exact .inr hpower

/-- Settles O40: `Env` keeps the core, and the only other step is power-on reset. -/
theorem onlyPowerOnLeavesTheFatalState : Obligations.OnlyPowerOnLeavesTheFatalState := by
  intro s t hf h
  rcases step_cases_of_fatal hf h with ⟨rest, p, -, rfl⟩ | ⟨rest, he, rfl⟩
  · exact .inl rfl
  · exact .inr ⟨⟨rest, he⟩, rfl, rfl⟩

/-- The outputs the fatal invariant forces: nothing is keyed (60_exceptions.md R206). -/
theorem outputs_of_fatal (hf : s.core.fatal = true) (hs : s.core.fatalSilent) :
    s.keyLine = s.ports.cfgActiveLow ∧ s.sidetone = false ∧ s.failSignal = true := by
  obtain ⟨hkeyed, -⟩ := hs.1 hf
  exact ⟨by rw [State.keyLine_eq, hkeyed, Bool.false_xor], hkeyed, hf⟩

/-- Settles O41: one halted step for each agent but `Env`, `Env`'s own step, and the silent outputs. -/
theorem fatalStateHaltsEveryAgentButEnv : Obligations.FatalStateHaltsEveryAgentButEnv := by
  refine fun s hf => ⟨fun rest k op he => ?_, fun rest p he => ⟨_, step_env he, rfl, rfl, rfl⟩, outputs_of_fatal hf⟩
  rcases he with he | he | he
  · exact step_main_halted he hf
  · exact step_timer_halted he hf
  · exact step_access_halted he hf

/-- A command that answers a next state leaves `FATAL = 0`, or it makes the fatal entry: `ENQ` with code 1, `TCALC` or
`KTICK` with code 3 (60_exceptions.md R205). -/
theorem exec_fatal_cases {i : Instr} (h : exec i s = .next t) :
    t.core.fatal = false ∨ ((∃ k, i = .enq k) ∧ t = s.fatalWith Config.fcEventKind) ∨
      ((i = .tcalc ∨ i = .ktick) ∧ t = s.fatalWith Config.fcTimingRange) := by
  rcases exec_cases h with ⟨-, hm, rfl⟩ | ⟨k, rfl, hm, ⟨-, rfl⟩ | ⟨-, rfl⟩⟩ | ⟨-, hm, ⟨-, rfl⟩ | ⟨-, rfl⟩⟩ |
    ⟨-, hm, v, rfl⟩ | ⟨rfl, hm, ⟨-, rfl⟩ | ⟨-, rfl⟩⟩ | ⟨-, hm, rfl⟩ | ⟨rfl, hm, ⟨-, -, rfl⟩ | ⟨c, hr, rfl⟩⟩ |
    ⟨-, hm, rfl⟩
  · exact .inl hm.1
  · exact .inl hm.1
  · exact .inr (.inl ⟨⟨k, rfl⟩, rfl⟩)
  · exact .inl hm.1
  · exact .inl hm.1
  · exact .inl hm.1
  · exact .inl hm.1
  · exact .inr (.inr ⟨.inl rfl, rfl⟩)
  · exact .inl hm.1
  · exact .inr (.inr ⟨.inr rfl, rfl⟩)
  · obtain ⟨-, hkeeps, -⟩ := keyerTick_of_refresh hr s.core.opa
    exact .inl (hkeeps.trans hm.1)
  · exact .inl hm.1

/-- An issue that answers a next state leaves `FATAL = 0`, or it makes the fatal entry with one of the three codes. -/
theorem issue_fatal_cases {w : Cmd} (h : issue w s = .next t) :
    t.core.fatal = false ∨ ∃ code, t = s.fatalWith code ∧ (code = 0x01#8 ∨ code = 0x02#8 ∨ code = 0x03#8) := by
  rcases issue_cases h with ⟨i, -, hi⟩ | ⟨e, hd, -, -, rfl⟩
  · rcases exec_fatal_cases hi with hf | ⟨-, ht⟩ | ⟨-, ht⟩
    · exact .inl hf
    · exact .inr ⟨_, ht, .inl rfl⟩
    · exact .inr ⟨_, ht, .inr (.inr rfl)⟩
  · refine .inr ⟨_, rfl, ?_⟩
    rw [decode_error_code hd]
    split_ifs
    · exact .inl rfl
    · exact .inr (.inl rfl)

/-- Settles O42: the code the fatal entry writes is the one `FCODE` shows. -/
theorem fatalEntryIsPrecise : Obligations.FatalEntryIsPrecise := by
  intro w s t _ h ht
  rcases issue_fatal_cases h with hf | ⟨code, rfl, hcode⟩
  · exact absurd hf (ne_false_of_eq_true ht)
  · exact ⟨rfl, hcode⟩

end Sys2Proof.Machine
end

section
/-! The range of the durations (41_timing.md R154), and `O21`. -/

namespace Sys2Proof.Machine

variable {wpm : BitVec 8} {scale : Bank Word}

theorem one_tenth_le_scaleMin : (1 : ℚ) / 10 ≤ binary32Value Config.scaleMin := by
  have hfin : binary32Finite Config.scaleMin := binary32Finite_of_lt (by decide)
  have hv : (2 : ℤ) ^ 149 ≤ scaledValue Config.scaleMin * 10 := by decide
  have hq : (2 : ℚ) ^ 149 ≤ scaledValue Config.scaleMin * 10 := by exact_mod_cast hv
  rw [binary32Value_eq_scaledValue hfin, div_le_div_iff₀ (by norm_num) (by positivity), one_mul]
  exact hq

/-- A unit is at least 12 ticks and a scale at least 0.1. -/
theorem one_le_exactDuration (h : validConfig wpm scale = true) (e : Element) : 1 ≤ exactDuration e wpm scale := by
  obtain ⟨hfin, hmin, -⟩ := validScale_iff_binary32Value.mp ((validConfig_iff.mp h).2 e)
  have hscale : (1 : ℚ) / 10 ≤ binary32Value (scale.get e) := one_tenth_le_scaleMin.trans hmin
  have hk : (1 : ℚ) ≤ Config.unitMultiplier e := by cases e <;> norm_num [Config.unitMultiplier]
  have hpos : (0 : ℚ) < wpm.toNat := by exact_mod_cast (validConfig_wpm h).1
  have hw : (wpm.toNat : ℚ) ≤ 100 := by exact_mod_cast (validConfig_wpm h).2
  have hunit : (12 : ℚ) ≤ 60000 / (wpm.toNat * 50) := by
    rw [le_div_iff₀ (by positivity)]
    linarith
  calc (1 : ℚ) ≤ 1 * 12 * (1 / 10) := by norm_num
    _ ≤ exactDuration e wpm scale := by unfold exactDuration; gcongr

/-- Rounding takes an exact duration past neither limit. -/
theorem calcDurations_bounds (h : validConfig wpm scale = true) (e : Element) :
    1 ≤ ((calcDurations wpm scale).get e).toNat ∧
      ((calcDurations wpm scale).get e).toNat ≤ Config.unitMultiplier e * 12000 := by
  have hround := calcDurations_toNat h e
  have hlow : (1 : ℤ) ≤ ⌊exactDuration e wpm scale + 1 / 2⌋ :=
    Int.le_floor.mpr (by push_cast; linarith [one_le_exactDuration h e])
  have hhigh : ⌊exactDuration e wpm scale + 1 / 2⌋ < Config.unitMultiplier e * 12000 + 1 :=
    Int.floor_lt.mpr (by push_cast; linarith [exactDuration_le h e])
  omega

/-- Settles O21: no multiplier is above 7, and those of the Dash and the ElementSpace together are 4. -/
theorem durationsStayInRange : Obligations.DurationsStayInRange := by
  refine fun wpm scale h => ⟨fun e => ?_, ?_⟩
  · obtain ⟨hlow, hhigh⟩ := calcDurations_bounds h e
    have hk : Config.unitMultiplier e ≤ 7 := by cases e <;> decide
    omega
  · have hdash : (calcDurations wpm scale).dash.toNat ≤ 3 * 12000 := (calcDurations_bounds h .dash).2
    have hspace : (calcDurations wpm scale).elementSpace.toNat ≤ 1 * 12000 := (calcDurations_bounds h .elementSpace).2
    omega

end Sys2Proof.Machine
end

section
/-! The invariants of the core (10_state.md section 9), update by update and step by step, and `O38`, `O39`. -/

namespace Sys2Proof.Machine

variable {c : CoreState}

theorem CoreState.Inv.raiseFatal (h : c.Inv) {code : FatalCode} (hcode : code ≠ 0#8) : (c.raiseFatal code).Inv :=
  ⟨fun _ => rfl, ⟨fun _ => ⟨rfl, hcode⟩, nofun⟩, h.timers, h.pending, h.cache⟩

theorem CoreState.Inv.enqueue (h : c.Inv) {k : Nat} (hk : k < 6) : (c.enqueue k).Inv :=
  ⟨h.panic, h.fatal, h.timers, setEvent_legal c.pending k h.pending hk, h.cache⟩

theorem CoreState.Inv.timerStep (h : c.Inv) : c.timerStep.Inv :=
  ⟨h.panic, h.fatal, h.timers, setEvent_legal c.pending evTick h.pending (by decide), h.cache⟩

theorem CoreState.Inv.schedulerInit (h : c.Inv) : c.schedulerInit.Inv :=
  ⟨h.panic, h.fatal, h.timers, (by decide : (0#8).toNat < 64), h.cache⟩

theorem CoreState.Inv.drain (h : c.Inv) : c.drain.Inv :=
  ⟨h.panic, h.fatal, h.timers, (by decide : (0#8).toNat < 64), h.cache⟩

theorem CoreState.Inv.setRes (h : c.Inv) (v : Word) : (c.setRes v).Inv :=
  ⟨h.panic, h.fatal, h.timers, h.pending, h.cache⟩

theorem CoreState.Inv.setTres (h : c.Inv) (d : Bank Tick) : (c.setTres d).Inv :=
  ⟨h.panic, h.fatal, h.timers, h.pending, h.cache⟩

theorem CoreState.Inv.setOpa (h : c.Inv) (v : Word) : (c.setOpa v).Inv :=
  ⟨h.panic, h.fatal, h.timers, h.pending, h.cache⟩

theorem CoreState.Inv.setOpb (h : c.Inv) (v : Word) : (c.setOpb v).Inv :=
  ⟨h.panic, h.fatal, h.timers, h.pending, h.cache⟩

theorem CoreState.Inv.setKstate (h : c.Inv) (k : KState) : (c.setKstate k).Inv :=
  ⟨h.panic, h.fatal, h.timers, h.pending, h.cache⟩

/-- An output that is off meets what the panic and the fatal invariant ask of `KEYED`. -/
theorem CoreState.Inv.fatalSilent_of_keyed_eq_false {d : CoreState} (h : c.Inv) (hfatal : d.fatal = c.fatal)
    (hfcode : d.fcode = c.fcode) (hkeyed : d.keyed = false) : d.fatalSilent := by
  refine ⟨fun hf => ⟨hkeyed, ?_⟩, fun hf => ?_⟩
  · rw [hfcode]
    exact (h.fatal.1 (hfatal.symm.trans hf)).2
  · rw [hfcode]
    exact h.fatal.2 (hfatal.symm.trans hf)

theorem CoreState.Inv.deenergize (h : c.Inv) : c.deenergize.Inv :=
  ⟨fun _ => rfl, h.fatalSilent_of_keyed_eq_false rfl rfl rfl, h.timers, h.pending, h.cache⟩

theorem CoreState.Inv.afterPanic (h : c.Inv) : c.panic.Inv :=
  ⟨fun _ => rfl, h.fatalSilent_of_keyed_eq_false rfl rfl rfl, h.timers, h.pending, h.cache⟩

theorem timersOrdered_of_zero (hd : c.edur = 0#32) : c.timersOrdered := by
  rw [CoreState.timersOrdered, hd]
  exact Nat.zero_le _

theorem CoreState.Inv.keyerInit (h : c.Inv) : c.keyerInit.Inv :=
  ⟨fun _ => rfl, h.fatalSilent_of_keyed_eq_false rfl rfl rfl, timersOrdered_of_zero rfl, h.pending,
    .inl ⟨rfl, rfl, rfl⟩⟩

theorem CoreState.Inv.clearPanic (h : c.Inv) : c.clearPanic.Inv :=
  ⟨nofun, h.fatal, timersOrdered_of_zero rfl, h.pending, h.cache⟩

theorem CoreState.Inv.energize (h : c.Inv) (hf : c.fatal = false) (hp : c.panicked = false) : c.energize.Inv :=
  ⟨fun hp' => absurd hp' (ne_true_of_eq_false hp), ⟨fun hf' => absurd hf' (ne_true_of_eq_false hf), h.fatal.2⟩, h.timers,
    h.pending, h.cache⟩

theorem CoreState.Inv.fillCache (h : c.Inv) {wpm : BitVec 8} {scale : Bank Word} (hv : validConfig wpm scale = true) :
    (c.fillCache wpm scale).Inv :=
  ⟨h.panic, h.fatal, h.timers, h.pending, .inr ⟨hv, rfl⟩⟩

/-- A coherent cache holds no duration above the longest WordSpace (41_timing.md R154). -/
theorem cachedDuration_le (h : c.cacheCoherent) (e : Element) : (c.dur.get e).toNat ≤ 84000 := by
  rcases h with ⟨-, hd, -⟩ | ⟨hv, hd⟩
  · rw [hd]
    cases e <;> decide
  · rw [hd]
    exact ((durationsStayInRange _ _ hv).1 e).2

/-- The lockout of a new element ends no sooner than the element: duration and ElementSpace do not wrap. -/
theorem beginElement_timersOrdered (now d : Tick) (h : d.toNat + c.dur.elementSpace.toNat < 2 ^ 32) :
    (c.beginElement now d).timersOrdered := by
  have hlock : now + d + c.dur.elementSpace - now = d + c.dur.elementSpace := by bv_omega
  rw [CoreState.timersOrdered, CoreState.beginElement_elock, CoreState.beginElement_estart,
    CoreState.beginElement_edur, hlock, BitVec.toNat_add_of_lt h]
  exact Nat.le_add_right _ _

theorem CoreState.Inv.beginElement (h : c.Inv) (hf : c.fatal = false) (hp : c.panicked = false) (now : Tick)
    {d : Tick} (hd : d = c.dur.dot ∨ d = c.dur.dash) : (c.beginElement now d).Inv := by
  have hspace : c.dur.elementSpace.toNat ≤ 84000 := cachedDuration_le h.cache .elementSpace
  have hbound : d.toNat ≤ 84000 := by
    rcases hd with rfl | rfl
    · exact cachedDuration_le h.cache .dot
    · exact cachedDuration_le h.cache .dash
  exact ⟨fun hp' => absurd hp' (ne_true_of_eq_false hp),
    ⟨fun hf' => absurd hf' (ne_true_of_eq_false hf), h.fatal.2⟩,
    beginElement_timersOrdered now d (by omega), h.pending, h.cache⟩

theorem CoreState.Inv.stateAction (h : c.Inv) (hf : c.fatal = false) (next : KState) (now : Tick) (changed : Bool) :
    (stateAction next now changed c).Inv := by
  rcases stateAction_cases next now changed c with ha | ha | ⟨ha, hp, -⟩ | ⟨d, hd, ha, hp⟩ <;> rw [ha]
  · exact h
  · exact h.deenergize
  · exact h.energize hf hp
  · exact h.beginElement hf hp now hd

theorem CoreState.Inv.keyerTick (h : c.Inv) (hf : c.fatal = false) (now : Tick) (p : Ports) :
    (keyerTick now p c).Inv := by
  rw [keyerTick_eq]
  split_ifs
  · exact (h.clearPanic.setKstate (nextState c.kstate p)).stateAction hf _ _ _
  · exact (h.setKstate (nextState c.kstate p)).stateAction hf _ _ _

theorem CoreState.Inv.refreshDurations (h : c.Inv) {p : Ports} {d : CoreState} (hr : refreshDurations p c = some d) :
    d.Inv ∧ d.fatal = c.fatal := by
  rcases refreshDurations_cases p c with ⟨-, hr'⟩ | ⟨-, hv, hr'⟩ | ⟨-, -, hr'⟩ <;> rw [hr'] at hr <;> cases hr
  · exact ⟨h, rfl⟩
  · exact ⟨h.fillCache hv, rfl⟩

theorem exec_keeps_inv {i : Instr} {s t : State} (hs : s.core.Inv) (h : exec i s = .next t) : t.core.Inv := by
  rcases exec_cases h with ⟨-, hm, rfl⟩ | ⟨k, -, hm, ⟨hk, rfl⟩ | ⟨-, rfl⟩⟩ | ⟨-, hm, ⟨-, rfl⟩ | ⟨-, rfl⟩⟩ |
    ⟨-, hm, v, rfl⟩ | ⟨-, hm, ⟨-, rfl⟩ | ⟨-, rfl⟩⟩ | ⟨-, hm, rfl⟩ | ⟨-, hm, ⟨-, -, rfl⟩ | ⟨c, hr, rfl⟩⟩ | ⟨-, hm, rfl⟩
  · exact hs.schedulerInit
  · exact hs.enqueue (legalKind_iff.mp hk)
  · exact hs.raiseFatal (by decide)
  · exact hs
  · exact hs.drain
  · exact hs.setRes v
  · exact hs.setTres _
  · exact hs.raiseFatal (by decide)
  · exact hs.keyerInit
  · exact hs.raiseFatal (by decide)
  · obtain ⟨hc, hf⟩ := hs.refreshDurations hr
    exact hc.keyerTick (hf.trans hm.1) s.core.opa s.ports
  · exact hs.afterPanic

theorem issue_keeps_inv {w : Cmd} {s t : State} (hs : s.core.Inv) (h : issue w s = .next t) : t.core.Inv := by
  rcases issue_cases h with ⟨i, -, hi⟩ | ⟨e, -, -, -, rfl⟩
  · exact exec_keeps_inv hs hi
  · exact hs.raiseFatal (by cases e <;> decide)

theorem CoreState.inv_reset : CoreState.reset.Inv :=
  ⟨nofun, ⟨nofun, fun _ => rfl⟩, timersOrdered_of_zero rfl, (by decide : (0#8).toNat < 64), .inl ⟨rfl, rfl, rfl⟩⟩

/-- Settles O39: at reset nothing is keyed, pending or cached. -/
theorem resetMeetsTheInvariants : Obligations.ResetMeetsTheInvariants := CoreState.inv_reset

/-- Settles O38: each step issues a word, writes the registers one update names, or leaves them alone. -/
theorem everyStepKeepsTheInvariants : Obligations.EveryStepKeepsTheInvariants := by
  intro s t hs h
  rcases step_cases h with ⟨-, -, rfl⟩ | ⟨rest, -, -, hc, -⟩ | ⟨rest, v, pos, -, hi⟩ | ⟨rest, v, pos, -, rfl⟩ |
    ⟨rest, v, pos, -, rfl⟩ | ⟨rest, -, -, rfl⟩ | ⟨rest, k, v, -, hi⟩ | ⟨rest, p, -, rfl⟩ | ⟨rest, -, rfl⟩
  · exact hs
  · rw [hc]
    exact hs
  · exact issue_keeps_inv (by exact hs) hi
  · exact hs.setOpa v
  · exact hs.setOpb v
  · exact hs.timerStep
  · exact issue_keeps_inv (by exact hs) hi
  · exact hs
  · exact CoreState.inv_reset

end Sys2Proof.Machine
end

section
/-! Decoder and encoder are inverse to each other on the well-formed commands (30_encoding.md R96, R101), and `O50`,
`O51`, `O54`. -/

namespace Sys2Proof

theorem encode_enq (kind : BitVec 4) : encode (.enq kind) = 0x2#4 ++ kind ++ 0x00#8 := by
  revert kind
  decide

/-- Settles O50: the kinds of `ENQ` by `decode_enqWord`, every other command by its one word. -/
theorem decodeOfEncodeIsIdentity : Obligations.DecodeOfEncodeIsIdentity := by
  intro i hi
  cases i with
  | enq kind => exact (encode_enq kind ▸ decode_enqWord kind).trans (if_pos hi)
  | _ => rfl

/-- The operations other than `ENQ` are selected by the `OP` of their word, whose `KIND` is 0. -/
theorem encode_of_selectOp_ne_enq : ∀ op : BitVec 4, op ≠ opEnq → ∀ i ∈ selectOp op 0#4,
    i.wellFormed = true ∧ encode i = op ++ 0#4 ++ 0x00#8 := by
  decide

theorem eq_append_fields (w : Cmd) : w = opField w ++ kindField w ++ rsvField w := by
  rw [eq_iff_fields, opField_append, kindField_append, rsvField_append]
  exact ⟨rfl, rfl, rfl⟩

/-- Settles O51: `RSV` is 0, and `OP` and `KIND` are those of the command's word. -/
theorem onlyEncodingsDecode : Obligations.OnlyEncodingsDecode := by
  intro w i h
  obtain ⟨hselect, hrsv, hkind, hlegal⟩ := decode_eq_ok h
  rw [eq_append_fields w, hrsv]
  by_cases hop : opField w = opEnq
  · rw [hop] at hselect ⊢
    obtain rfl : Instr.enq (kindField w) = i := Option.some.inj hselect
    exact ⟨hlegal hop, encode_enq _⟩
  · rw [hkind hop] at hselect ⊢
    exact encode_of_selectOp_ne_enq _ hop i hselect

/-- Settles O54: each word is run through the decoder. -/
theorem writtenWordsDecode : Obligations.WrittenWordsDecode :=
  ⟨rfl, rfl, rfl, rfl, rfl⟩

/-- A word stands for one command only, and a command has one word only. -/
theorem decode_eq_ok_iff {w : Cmd} {i : Instr} : decode w = .ok i ↔ i.wellFormed = true ∧ encode i = w :=
  ⟨onlyEncodingsDecode w i, fun ⟨hi, hw⟩ => hw ▸ decodeOfEncodeIsIdentity i hi⟩

end Sys2Proof
end

section
/-! Ordering and counting of ticks (40_scheduler.md R121, R124, R126), and `O11`, `O12`, `O13`. -/

namespace Sys2Proof.Machine

/-- Settles O11: both tests in the one distance `a - b` and its opposite `b - a`, whose sum is 0 or 2^32. -/
theorem tickOrderingLaws : Obligations.TickOrderingLaws := by
  intro a b
  have hopposite : (b - a).toNat = (2 ^ 32 - (a - b).toNat) % 2 ^ 32 := by bv_omega
  have hlt : (a - b).toNat < 2 ^ 32 := (a - b).isLt
  have heq : a = b ↔ (a - b).toNat = 0 := by bv_omega
  simp only [← Bool.not_eq_true, ne_eq, isTickGt_iff, isTickGte_iff, heq, hopposite]
  refine ⟨?_, ?_, ?_, ?_, ?_⟩ <;> omega

/-- The distance of two wrapped instants less than half the range apart. -/
theorem toNat_sub_of_instants {a b : Nat} (h : a < b + 2 ^ 31) (h' : b < a + 2 ^ 31) :
    (BitVec.ofNat 32 a - BitVec.ofNat 32 b : Tick).toNat = if b ≤ a then a - b else 2 ^ 32 - (b - a) := by
  rw [BitVec.toNat_sub, BitVec.toNat_ofNat, BitVec.toNat_ofNat]
  split_ifs <;> omega

/-- Settles O12: the distance is below half the range exactly when `a` is not the earlier one. -/
theorem orderingCorrectWithinHalfRange : Obligations.OrderingCorrectWithinHalfRange := by
  intro a b h h'
  rw [isTickGt_iff, isTickGte_iff, toNat_sub_of_instants h h']
  split_ifs <;> omega

/-- The count between two readings `n` timer steps apart is `n` modulo 2^32. -/
theorem elapsedTicks_ofNat_add (a n : Nat) :
    (elapsedTicks (BitVec.ofNat 32 (a + n)) (BitVec.ofNat 32 a)).toNat = n % 2 ^ 32 := by
  rw [elapsedTicks_toNat, BitVec.toNat_ofNat, BitVec.toNat_ofNat]
  omega

/-- Settles O13: a count modulo 2^32 is the count itself exactly below 2^32. -/
theorem elapsedCountsTimerSteps : Obligations.ElapsedCountsTimerSteps := by
  refine ⟨elapsedTicks_toInt, fun a n => ?_⟩
  rw [elapsedTicks_ofNat_add]
  exact Nat.mod_eq_iff_lt (by decide)

end Sys2Proof.Machine
end

section
/-! Timer steps in a row (40_scheduler.md R111, R128), and `O15`. -/

namespace Sys2Proof.Machine

/-- `n` timer steps in a row write the core `n` times and take `n` scheduled steps. -/
theorem run_timers (n : Nat) {s : State} {rest : List Event} (hf : s.core.fatal = false)
    (he : s.events = List.replicate n .timer ++ rest) :
    ∃ t : State, Host.Core.run core n s = .next t ∧ t.events = rest ∧ t.core = CoreState.timerStep^[n] s.core := by
  induction n generalizing s with
  | zero => exact ⟨s, rfl, he, rfl⟩
  | succ n ih =>
    rw [run_succ_of_step (step_timer he hf)]
    exact ih hf rfl

/-- Timer steps add up in `TICK` and coalesce in `PENDING`. -/
theorem timerStep_iterate_succ (n : Nat) (c : CoreState) : CoreState.timerStep^[n + 1] c =
    { c with tick := c.tick + BitVec.ofNat 32 (n + 1), pending := setEvent c.pending evTick } := by
  induction n with
  | zero => rfl
  | succ n ih =>
    rw [Function.iterate_succ_apply', ih]
    have htick : c.tick + BitVec.ofNat 32 (n + 1) + 1#32 = c.tick + BitVec.ofNat 32 (n + 1 + 1) := by
      rw [BitVec.add_assoc, BitVec.ofNat_add (n + 1) 1]
    have hpending : setEvent (setEvent c.pending evTick) evTick = setEvent c.pending evTick := by
      rw [setEvent, setEvent, BitVec.or_assoc, BitVec.or_self]
    rw [CoreState.timerStep, htick, hpending]

/-- Settles O15: the iterated writes, read off as numbers and bits. -/
theorem timerStepsWrapAndCoalesce : Obligations.TimerStepsWrapAndCoalesce := by
  intro n s rest hf he
  obtain ⟨t, hrun, hevents, hcore⟩ := run_timers (n + 1) hf he
  rw [timerStep_iterate_succ] at hcore
  refine ⟨t, hrun, hevents, ?_, ?_, ?_⟩ <;> rw [hcore]
  · rw [BitVec.toNat_add, BitVec.toNat_ofNat, Nat.add_mod_mod]
  · exact setEvent_getLsbD s.core.pending evTick

end Sys2Proof.Machine
end

section
/-! `WAIT` and the words `Main` and the `Isr` agents write to `CMD`: how a step runs them (20_memory.md R73,
40_scheduler.md R115 to R117, 60_exceptions.md R202), and `O4`, `O5`, `O6`, `O48`, `O55`. -/

namespace Sys2Proof.Machine

variable {s t : State} {rest : List Event} {v : Word}

theorem exec_wait_of_pending (h : s.mainMayIssue) (hp : s.core.pending ≠ 0#8) :
    exec .wait s = .next (s.withCore s.core.drain) :=
  (asMain_allowed h).trans (if_neg hp)

theorem exec_wait_of_empty (h : s.mainMayIssue) (hp : s.core.pending = 0#8) : exec .wait s = .next s :=
  (asMain_allowed h).trans (if_pos hp)

theorem issue_of_decode {w : Cmd} {i : Instr} (h : decode w = .ok i) (s : State) : issue w s = exec i s := by
  rw [issue, h]

theorem decode_eq_wait_iff {w : Cmd} : decode w = .ok .wait ↔ w = 0x3000#16 :=
  decode_eq_ok_iff.trans ⟨fun h => h.2.symm, fun h => ⟨rfl, h.symm⟩⟩

theorem snapshot_toNat (p : BitVec 8) : (p.setWidth 32).toNat = p.toNat :=
  BitVec.toNat_setWidth_of_le (by decide)

theorem snapshot_ne_zero {p : BitVec 8} (h : p ≠ 0#8) : p.setWidth 32 ≠ 0#32 := by
  intro hp
  rw [BitVec.toNat_eq, snapshot_toNat] at hp
  exact h (BitVec.eq_of_toNat_eq hp)

/-- Settles O4: the two branches of `WAIT`; widening keeps the number. -/
theorem waitTakesSnapshotAndClears : Obligations.WaitTakesSnapshotAndClears := by
  refine ⟨rfl, fun s h => ⟨exec_wait_of_empty h, fun hp => ?_⟩⟩
  have hv := snapshot_toNat s.core.pending
  exact ⟨_, exec_wait_of_pending h hp, hv, fun hl => hv.trans_lt hl⟩

theorem mainFetched_mayIssue {op : BusOp} (h : s.mainAccesses rest op) : (s.mainFetched rest).mainMayIssue :=
  ⟨h.1, rfl⟩

/-- A write to `CMD` that does not hold issues the lower half of the word. -/
theorem step_mainCmd (h : s.mainAccesses rest (.write 0x00#8 v))
    (hh : v.setWidth 16 = 0x3000#16 → s.core.pending ≠ 0#8) :
    step s = issue (v.setWidth 16) (s.mainFetched rest) := by
  refine step_mainAccess h (Bool.eq_false_iff.mpr fun hholds => ?_)
  obtain ⟨v', hv, hd, hp⟩ := (holds_iff _ _).mp hholds
  cases hv
  exact hh (decode_eq_wait_iff.mp hd) hp

/-- A `WAIT` that holds is issued with `Main` still at it. -/
theorem step_mainCmd_holds (h : s.mainAccesses rest (.write 0x00#8 v)) (hv : v.setWidth 16 = 0x3000#16)
    (hp : s.core.pending = 0#8) : step s = issue (v.setWidth 16) ((s.began rest).asAgent .main) :=
  step_mainHolds h ((holds_iff _ _).mpr ⟨v, rfl, decode_eq_wait_iff.mpr hv, hp⟩)

/-- Settles O48: three writes that do not hold. -/
theorem busWriteReachesItsRegister : Obligations.BusWriteReachesItsRegister :=
  fun _ _ _ => ⟨fun h => step_mainAccess h rfl, fun h => step_mainAccess h rfl, step_mainCmd⟩

/-- Settles O55: the step issues the word, and the word decodes to the command. -/
theorem stepRunsTheDecodedCommand : Obligations.StepRunsTheDecodedCommand := by
  intro s rest v i hd
  refine ⟨fun h hp => ?_, fun h hi hp => ?_, fun k hf he => ?_⟩
  · rw [← issue_of_decode hd]
    refine step_mainCmd h fun hv => hp ?_
    rw [decode_eq_wait_iff.mpr hv] at hd
    exact (Except.ok.inj hd).symm
  · rw [← issue_of_decode hd]
    exact step_mainCmd_holds h (decode_eq_wait_iff.mp (hi ▸ hd)) hp
  · rw [← issue_of_decode hd]
    exact step_isrIssue hf he

/-- `Main`'s step at a `WAIT` that completes. -/
theorem step_wait_completes (h : s.mainAccesses rest (.write 0x00#8 v)) (hv : v.setWidth 16 = 0x3000#16)
    (hp : s.core.pending ≠ 0#8) : step s = .next ((s.mainFetched rest).withCore s.core.drain) := by
  rw [step_mainCmd h fun _ => hp, issue_of_decode (decode_eq_wait_iff.mpr hv)]
  exact exec_wait_of_pending (mainFetched_mayIssue h) hp

/-- `Main`'s step at a `WAIT` that holds. -/
theorem step_wait_holds (h : s.mainAccesses rest (.write 0x00#8 v)) (hv : v.setWidth 16 = 0x3000#16)
    (hp : s.core.pending = 0#8) : step s = .next ((s.began rest).asAgent .main) := by
  rw [step_mainCmd_holds h hv hp, issue_of_decode (decode_eq_wait_iff.mpr hv)]
  exact exec_wait_of_empty ⟨h.1, rfl⟩ hp

/-- Settles O5: a hold does not take `Main` past the `WAIT`, and what a completed one returns is not empty. -/
theorem waitNeverReturnsEmptySet : Obligations.WaitNeverReturnsEmptySet := by
  intro s t rest v h hv hstep hpos hres
  by_cases hp : s.core.pending = 0#8
  · rw [step_wait_holds h hv hp] at hstep
    cases hstep
    exact absurd hpos (Nat.ne_of_lt (Nat.lt_succ_self _))
  · rw [step_wait_completes h hv hp] at hstep
    cases hstep
    exact snapshot_ne_zero hp hres

/-- A holding `WAIT` completes at `Main`'s next step once the step between has set one event. -/
theorem step_wait_after_event {e : Event} {k : Nat} {w : State}
    (h : s.mainAccesses (e :: .main :: rest) (.write 0x00#8 v)) (hv : v.setWidth 16 = 0x3000#16) (hp : s.core.pending = 0#8)
    (hk : k < 8) (hmain : w.main = s.main) (hevents : w.events = .main :: rest) (hfatal : w.core.fatal = s.core.fatal)
    (hpending : w.core.pending = setEvent s.core.pending k) :
    ∃ t : State, step w = .next t ∧ t.core.res = (setEvent 0#8 k).setWidth 32 ∧ t.core.pending = 0#8 ∧
      t.main.pos = s.main.pos + 1 := by
  obtain ⟨hf, -, m, hm, ha⟩ := h
  have hw : w.mainAccesses rest (.write 0x00#8 v) := by
    refine ⟨hfatal.trans hf, hevents, m, ?_, ?_⟩ <;> rwa [hmain]
  have hset : w.core.pending ≠ 0#8 := by
    rw [hpending]
    exact setEvent_ne_zero _ k hk
  refine ⟨_, step_wait_completes hw hv hset, ?_, rfl, ?_⟩
  · rw [State.withCore_core, CoreState.drain_res, hpending, hp]
  · exact congrArg (·.pos + 1) hmain

/-- An `Isr`'s own word is the `ENQ` of its number. -/
theorem decode_isrWord (k : IsrSource) :
    decode ((k.word.setWidth 32).setWidth 16) = .ok (.enq (BitVec.ofNat 4 k.number)) := by
  cases k <;> rfl

theorem legalKind_isrNumber (k : IsrSource) : legalKind (BitVec.ofNat 4 k.number) = true := by
  cases k <;> rfl

theorem step_isrWord {k : IsrSource} (hf : s.core.fatal = false)
    (he : s.events = .access (.isr k) (.write 0x00#8 (k.word.setWidth 32)) :: rest) :
    step s = .next ((s.handlerFetched rest (.isr k)).withCore (s.core.enqueue (BitVec.ofNat 4 k.number).toNat)) := by
  rw [step_isrIssue hf he, issue_of_decode (decode_isrWord k)]
  exact exec_enq (legalKind_isrNumber k) ⟨hf, .inr ⟨k, rfl⟩⟩

theorem setEvent_isrNumber (k : IsrSource) :
    (setEvent 0#8 (BitVec.ofNat 4 k.number).toNat).setWidth 32 = BitVec.twoPow 32 k.number := by
  cases k <;> rfl

/-- Settles O6: the hold, then the event's step and the completed `WAIT`. -/
theorem waitHoldsUntilAnEvent : Obligations.WaitHoldsUntilAnEvent := by
  intro s rest v h hv hp
  have hhold := step_wait_holds h hv hp
  refine ⟨hhold, ?_, ?_, ?_⟩
  · obtain ⟨hf, -, m, hm, ha⟩ := h
    have hholds := (holds_iff s.core (.write 0x00#8 v)).mpr ⟨v, rfl, decode_eq_wait_iff.mpr hv, hp⟩
    simp only [State.idle, hm, ha, hf, hholds, Bool.not_false, Bool.and_self]
  · rintro rest' rfl
    have htimer := step_timer (s := (s.began (.timer :: .main :: rest')).asAgent .main) rfl h.1
    obtain ⟨t, ht⟩ := step_wait_after_event
      (w := (((s.began _).asAgent .main).handlerFetched (.main :: rest') .timer).withCore s.core.timerStep)
      h hv hp (show evTick < 8 by decide) rfl rfl rfl rfl
    exact ⟨_, _, t, hhold, htimer, ht⟩
  · rintro k rest' rfl
    have hisr := step_isrWord (s := (s.began (_ :: .main :: rest')).asAgent .main) (k := k) h.1 rfl
    obtain ⟨t, ht, hres, hrest⟩ := step_wait_after_event
      (w := (((s.began _).asAgent .main).handlerFetched (.main :: rest') (.isr k)).withCore
        (s.core.enqueue (BitVec.ofNat 4 k.number).toNat))
      h hv hp (show (BitVec.ofNat 4 k.number).toNat < 8 by cases k <;> decide) rfl rfl rfl rfl
    exact ⟨_, _, t, hhold, hisr, ht, hres.trans (setEvent_isrNumber k), hrest⟩

end Sys2Proof.Machine
end

section
/-! Which command writes which register (10_state.md sections 2 to 5), and `O43`. -/

namespace Sys2Proof.Machine

variable {s t : State}

@[simp] theorem State.fatalWith_core (s : State) (code : FatalCode) :
    (s.fatalWith code).core = s.core.raiseFatal code := rfl

/-- The refresh writes only the cache, and so leaves what `KTICK` leaves (42_keyer.md R162). -/
theorem ktick_frame {p : Ports} {c d : CoreState} (h : refreshDurations p c = some d) (now : Tick) :
    (keyerTick now p d).tick = c.tick ∧ (keyerTick now p d).pending = c.pending ∧ (keyerTick now p d).opa = c.opa ∧
      (keyerTick now p d).opb = c.opb ∧ (keyerTick now p d).res = c.res ∧ (keyerTick now p d).tres = c.tres ∧
      (keyerTick now p d).fatal = c.fatal ∧ (keyerTick now p d).fcode = c.fcode := by
  obtain ⟨-, -, hframe⟩ := keyerTick_of_refresh h now
  generalize keyerTick now p d = e at hframe
  rw [hframe]
  exact ⟨rfl, rfl, rfl, rfl, rfl, rfl, rfl, rfl⟩

/-- Settles O43: the writes of each command, read off the updates of `exec_cases` in its order. -/
theorem commandsWriteOnlyTheirRegisters : Obligations.CommandsWriteOnlyTheirRegisters := by
  intro i s t h
  refine ⟨(exec_frame h).2, ?_⟩
  rcases exec_cases h with ⟨rfl, -, rfl⟩ | ⟨k, rfl, -, ⟨-, rfl⟩ | ⟨-, rfl⟩⟩ | ⟨rfl, -, ⟨-, rfl⟩ | ⟨-, rfl⟩⟩ |
    ⟨hi, -, v, rfl⟩ | ⟨rfl, -, ⟨-, rfl⟩ | ⟨-, rfl⟩⟩ | ⟨rfl, -, rfl⟩ | ⟨rfl, -, ⟨-, -, rfl⟩ | ⟨c, hr, rfl⟩⟩ | ⟨rfl, -, rfl⟩
  · simp
  · simp
  · simp
  · simp
  · simp
  · rcases hi with rfl | rfl | rfl | rfl <;> simp
  · simp
  · simp
  · simp
  · simp
  · obtain ⟨htick, hpending, hopa, hopb, hres, htres, hfatal, hfcode⟩ := ktick_frame hr s.core.opa
    simp [htick, hpending, hopa, hopb, hres, htres, hfatal, hfcode]
  · simp

end Sys2Proof.Machine
end

section
/-! Who writes `TICK`, clears `PENDING` and turns the output on, command by command (10_state.md sections 3 and 4,
60_exceptions.md R214), and `O46`. -/

namespace Sys2Proof.Machine

variable {i : Instr} {s t : State}

/-- `SINIT` clears `TICK`, and no other command writes it. -/
theorem exec_tick_cases (h : exec i s = .next t) :
    t.core.tick = s.core.tick ∨ (i = .sinit ∧ s.issuer = .main ∧ t.core.tick = 0#32) := by
  obtain ⟨-, -, -, -, htick, -⟩ := commandsWriteOnlyTheirRegisters i s t h
  by_cases hi : i = .sinit
  · subst hi
    obtain ⟨hm, ht⟩ := asMain_eq_next.mp h
    cases ht
    exact .inr ⟨rfl, hm.2, rfl⟩
  · exact .inl (htick hi)

/-- Setting an event loses none. -/
theorem setEvent_keeps {p : BitVec 8} {k j : Nat} (hj : p.getLsbD j = true) : (setEvent p k).getLsbD j = true := by
  rw [setEvent_getLsbD p k j (BitVec.lt_of_getLsbD hj), hj, Bool.true_or]

/-- A command keeps the events that are pending, or it is `WAIT`, which returns them, or `SINIT`, which discards them. -/
theorem exec_pending_cases (h : exec i s = .next t) :
    (∀ j : Nat, s.core.pending.getLsbD j = true → t.core.pending.getLsbD j = true) ∨
    (i = .wait ∧ s.issuer = .main ∧ t.core.pending = 0#8 ∧ t.core.res = s.core.pending.setWidth 32) ∨
    (i = .sinit ∧ s.issuer = .main ∧ t.core.pending = 0#8 ∧ t.core.tick = 0#32) := by
  obtain ⟨-, -, -, hpending, -⟩ := commandsWriteOnlyTheirRegisters i s t h
  cases i with
  | sinit =>
    obtain ⟨hm, ht⟩ := asMain_eq_next.mp h
    cases ht
    exact .inr (.inr ⟨rfl, hm.2, rfl, rfl⟩)
  | wait =>
    obtain ⟨hm, ht⟩ := asMain_eq_next.mp h
    split_ifs at ht <;> cases ht
    · exact .inl fun _ hj => hj
    · exact .inr (.inl ⟨rfl, hm.2, rfl, rfl⟩)
  | enq k =>
    obtain ⟨-, ht⟩ := asEnqueuer_eq_next.mp h
    refine .inl fun j hj => ?_
    split_ifs at ht <;> cases ht
    · exact setEvent_keeps hj
    · exact hj
  | _ => exact .inl fun j hj => by rwa [hpending nofun nofun nofun]

/-- The keyer's work turns the output on only where the panic is cleared (42_keyer.md R174, R175). -/
theorem keyerTick_energizes {now : Tick} {p : Ports} {c : CoreState} (hc : c.keyed = false)
    (h : (keyerTick now p c).keyed = true) : (keyerTick now p c).panicked = false := by
  rw [keyerTick_eq] at h ⊢
  have hkeyed : ((if decide (nextState c.kstate p ≠ c.kstate) && c.panicked then c.clearPanic else c).setKstate
      (nextState c.kstate p)).keyed = false := by
    split_ifs <;> exact hc
  rcases stateAction_cases (nextState c.kstate p) now (decide (nextState c.kstate p ≠ c.kstate)) _ with
    ha | ha | ⟨ha, hp, -⟩ | ⟨d, -, ha, hp⟩ <;> rw [ha] at h ⊢
  · exact absurd h (ne_true_of_eq_false hkeyed)
  · exact absurd h Bool.false_ne_true
  · exact hp
  · exact hp

/-- Only `KTICK` turns the output on, and the panic is cleared then. -/
theorem exec_energizes (h : exec i s = .next t) (hs : s.core.keyed = false) (ht : t.core.keyed = true) :
    i = .ktick ∧ s.issuer = .main ∧ t.core.panicked = false := by
  obtain ⟨-, -, -, -, -, -, -, -, -, hflags⟩ := commandsWriteOnlyTheirRegisters i s t h
  cases i with
  | ktick =>
    obtain ⟨hm, ⟨-, -, rfl⟩ | ⟨c, hr, rfl, -⟩⟩ := execKtick_cases h
    · exact absurd ht Bool.false_ne_true
    · have hc : c.keyed = false := by
        rw [refreshDurations_frame hr]
        exact hs
      exact ⟨rfl, hm.2, keyerTick_energizes hc ht⟩
  | kinit =>
    obtain ⟨-, h⟩ := asMain_eq_next.mp h
    cases h
    exact absurd ht Bool.false_ne_true
  | kpanic =>
    obtain ⟨-, h⟩ := asMain_eq_next.mp h
    cases h
    exact absurd ht Bool.false_ne_true
  | _ =>
    rcases hflags with ⟨-, -, hkeyed⟩ | ⟨-, code, rfl⟩
    · rw [hkeyed nofun nofun nofun, hs] at ht
      exact absurd ht Bool.false_ne_true
    · exact absurd ht Bool.false_ne_true

/-- Every command but `ENQ` is one of main context (60_exceptions.md R214). -/
theorem exec_refused_of_ne_main (hf : s.core.fatal = false) (hs : s.issuer ≠ .main) (hi : ∀ k, i ≠ .enq k) :
    exec i s = .refused (.contextForbids s.issuer) := by
  cases i with
  | enq k => exact absurd rfl (hi k)
  | _ => exact asMain_refused hf hs

/-- Settles O46: the guard of main context, and that of `ENQ` for the timer. -/
theorem contextsRefuseCommands : Obligations.ContextsRefuseCommands := by
  refine fun i s hf hs => ⟨exec_refused_of_ne_main hf hs, ?_⟩
  rintro k rfl htimer
  exact asEnqueuer_refused hf (by rw [htimer]; rfl)

end Sys2Proof.Machine
end

section
/-! The same rules for whole steps (10_state.md sections 3, 4 and 9, 20_memory.md section 3), and `O16`, `O17`, `O44`. -/

namespace Sys2Proof.Machine

variable {s t : State}

/-- What a step does to the core: nothing, a write of `OPA` or `OPB`, the timer step, power-on reset, or the issue of a word,
which is a write of `Main` to `CMD` where `Main` is the issuer. -/
theorem step_core_cases (h : step s = .next t) :
    t.core = s.core ∨ (∃ v, t.core = s.core.setOpa v ∨ t.core = s.core.setOpb v) ∨
    (∃ rest, s.events = .timer :: rest ∧ t.core = s.core.timerStep) ∨
    (∃ rest, s.events = .powerOn :: rest ∧ t.core = CoreState.reset) ∨
    ∃ (u : State) (w : Cmd), u.core = s.core ∧ issue w u = .next t ∧
      (u.issuer = .main → ∃ rest v, s.mainAccesses rest (.write 0x00#8 v) ∧ v.setWidth 16 = w) := by
  rcases step_cases h with ⟨-, -, rfl⟩ | ⟨rest, -, -, hc, -⟩ | ⟨rest, v, pos, hm, hi⟩ | ⟨rest, v, pos, -, rfl⟩ |
    ⟨rest, v, pos, -, rfl⟩ | ⟨rest, he, -, rfl⟩ | ⟨rest, k, v, -, hi⟩ | ⟨rest, p, -, rfl⟩ | ⟨rest, he, rfl⟩
  · exact .inl rfl
  · exact .inl hc
  · exact .inr (.inr (.inr (.inr ⟨s.taken rest .main pos, _, rfl, hi, fun _ => ⟨rest, v, hm, rfl⟩⟩)))
  · exact .inr (.inl ⟨v, .inl rfl⟩)
  · exact .inr (.inl ⟨v, .inr rfl⟩)
  · exact .inr (.inr (.inl ⟨rest, he, rfl⟩))
  · exact .inr (.inr (.inr (.inr ⟨s.handlerFetched rest (.isr k), _, rfl, hi, nofun⟩)))
  · exact .inl rfl
  · exact .inr (.inr (.inr (.inl ⟨rest, he, rfl⟩)))

/-- An issued word is the one of the command it runs, or the step makes the fatal entry. -/
theorem issue_word_cases {w : Cmd} (h : issue w s = .next t) :
    (∃ i, encode i = w ∧ exec i s = .next t) ∨ ∃ code, t = s.fatalWith code := by
  rcases issue_cases h with ⟨i, hd, hi⟩ | ⟨e, -, -, -, ht⟩
  · exact .inl ⟨i, (decode_eq_ok_iff.mp hd).2, hi⟩
  · exact .inr ⟨e.code, ht⟩

/-- Settles O16: of the commands `SINIT` alone writes `TICK`. -/
theorem onlyTimerSinitAndResetWriteTick : Obligations.OnlyTimerSinitAndResetWriteTick := by
  intro s t h
  rcases step_core_cases h with hc | ⟨v, hc | hc⟩ | ⟨rest, he, hc⟩ | ⟨rest, he, hc⟩ | ⟨u, w, hu, hi, hmain⟩
  · exact .inl (by rw [hc])
  · exact .inl (by rw [hc, CoreState.setOpa_tick])
  · exact .inl (by rw [hc, CoreState.setOpb_tick])
  · exact .inr (.inl ⟨rest, he, by rw [hc, CoreState.timerStep_tick]⟩)
  · exact .inr (.inr (.inl ⟨rest, he, by rw [hc]; rfl⟩))
  · rw [← hu]
    rcases issue_word_cases hi with ⟨i, rfl, hexec⟩ | ⟨code, rfl⟩
    · rcases exec_tick_cases hexec with htick | ⟨rfl, hissuer, htick⟩
      · exact .inl htick
      · obtain ⟨rest, v, hacc, hv⟩ := hmain hissuer
        exact .inr (.inr (.inr ⟨rest, v, hacc, hv, htick⟩))
    · exact .inl rfl

/-- Settles O17: the timer step only adds an event, and of the commands `WAIT` and `SINIT` alone clear any. -/
theorem pendingEventsAreNeverLost : Obligations.PendingEventsAreNeverLost := by
  intro s t h
  rcases step_core_cases h with hc | ⟨v, hc | hc⟩ | ⟨rest, he, hc⟩ | ⟨rest, he, hc⟩ | ⟨u, w, hu, hi, hmain⟩
  · exact .inl fun j hj => by rwa [hc]
  · exact .inl fun j hj => by rwa [hc, CoreState.setOpa_pending]
  · exact .inl fun j hj => by rwa [hc, CoreState.setOpb_pending]
  · exact .inl fun j hj => by
      rw [hc, CoreState.timerStep_pending]
      exact setEvent_keeps hj
  · exact .inr (.inr ⟨by rw [hc]; rfl, by rw [hc]; rfl, .inr ⟨rest, he⟩⟩)
  · rw [← hu]
    rcases issue_word_cases hi with ⟨i, rfl, hexec⟩ | ⟨code, rfl⟩
    · rcases exec_pending_cases hexec with hkeep | ⟨rfl, hissuer, hp, hres⟩ | ⟨rfl, hissuer, hp, htick⟩
      · exact .inl hkeep
      · exact .inr (.inl ⟨hp, hres, hmain hissuer⟩)
      · exact .inr (.inr ⟨hp, htick, .inl (hmain hissuer)⟩)
    · exact .inl fun j hj => hj

/-- Settles O44: every other step leaves `KEYED` or clears it. -/
theorem onlyKtickEnergizes : Obligations.OnlyKtickEnergizes := by
  intro s t h hs ht
  have hon : ¬ t.core.keyed = false := ne_false_of_eq_true ht
  rcases step_core_cases h with hc | ⟨v, hc | hc⟩ | ⟨rest, -, hc⟩ | ⟨rest, -, hc⟩ | ⟨u, w, hu, hi, hmain⟩
  · exact absurd (hc ▸ hs) hon
  · exact absurd (by rw [hc, CoreState.setOpa_keyed, hs]) hon
  · exact absurd (by rw [hc, CoreState.setOpb_keyed, hs]) hon
  · exact absurd (by rw [hc, CoreState.timerStep_keyed, hs]) hon
  · exact absurd (by rw [hc]; rfl) hon
  · rcases issue_word_cases hi with ⟨i, rfl, hexec⟩ | ⟨code, rfl⟩
    · obtain ⟨rfl, hissuer, hp⟩ := exec_energizes hexec (hu ▸ hs) ht
      exact ⟨hp, hmain hissuer⟩
    · exact absurd ht Bool.false_ne_true

end Sys2Proof.Machine
end

section
/-! Steps from interrupt context (60_exceptions.md R202, 70_reset_and_hazards.md section 3), of `Env` and of power-on
reset, and `O45`, `O56`, `O58`. -/

namespace Sys2Proof.Machine

variable {s t : State} {rest : List Event}

/-- What an `Isr` issues: an event, or the fatal entry with code 1. -/
theorem issue_isr_cases {w : Cmd} {k : IsrSource} (hs : s.issuer = .interrupt (.isr k)) (h : issue w s = .next t) :
    (∃ j, t = s.withCore (s.core.enqueue j)) ∨ t = s.fatalWith 0x01#8 := by
  rcases issue_cases h with ⟨i, -, hi⟩ | ⟨e, hd, -, hagent, rfl⟩
  · have henq : ∃ j, i = .enq j := by
      by_contra hne
      have hrefused := exec_refused_of_ne_main (exec_frame hi).1 (by rw [hs]; nofun) (not_exists.mp hne)
      rw [hrefused] at hi
      cases hi
    obtain ⟨j, rfl⟩ := henq
    obtain ⟨-, hi⟩ := asEnqueuer_eq_next.mp hi
    split_ifs at hi <;> cases hi
    · exact .inl ⟨j.toNat, rfl⟩
    · exact .inr rfl
  · have henq : isEnqWord w = true := by
      rcases hagent with hm | ⟨-, henq⟩
      · simp [hs] at hm
      · exact henq
    rw [decode_error_code hd, if_pos henq]
    exact .inr rfl

/-- Settles O45: the timer's two writes, and the two things an `Isr` can issue. -/
theorem interruptsTouchOnlyTheScheduler : Obligations.InterruptsTouchOnlyTheScheduler := by
  intro s t rest h op he hstep
  rcases he with he | he
  · rw [step_event he] at hstep
    obtain ⟨-, hstep⟩ := unlessHalted_eq_next.mp hstep
    cases hstep
    exact ⟨rfl, rfl, .inl rfl⟩
  · rw [step_access he] at hstep
    obtain ⟨k, v, rfl, -, hi⟩ := handlerAccess_cases hstep
    rcases issue_isr_cases rfl hi with ⟨j, rfl⟩ | rfl
    · exact ⟨rfl, rfl, .inl rfl⟩
    · exact ⟨rfl, rfl, .inr rfl⟩

/-- Settles O58: `Env`'s step presents the ports, and `KEY_LINE` reads them. -/
theorem envStepChangesOnlyPorts : Obligations.EnvStepChangesOnlyPorts :=
  fun _ _ _ he => ⟨_, step_env he, rfl, rfl, rfl, rfl, rfl⟩

theorem step_powerOn (h : s.events = .powerOn :: rest) : step s = .next (powerOnReset (s.began rest)) :=
  step_event h

/-- `SINIT` and `KINIT` together write every register but the operands, the results and the fatal ones. -/
theorem keyerInit_schedulerInit {c : CoreState} (hfatal : c.fatal = false) (hfcode : c.fcode = 0#8) :
    c.schedulerInit.keyerInit =
      { CoreState.reset with opa := c.opa, opb := c.opb, res := c.res, tres := c.tres } :=
  CoreState.ext_fields rfl rfl rfl rfl rfl rfl rfl rfl rfl rfl rfl hfatal hfcode rfl rfl rfl rfl

/-- Settles O56: power-on reset, and the two commands in a row. -/
theorem powerOnResetsTheCore : Obligations.PowerOnResetsTheCore := by
  refine ⟨fun s rest he => ?_, fun s hm hs => ?_⟩
  · exact ⟨_, step_powerOn he, rfl, rfl, rfl, Bool.false_xor _, State.indicator_of_not_fatal rfl, rfl, rfl⟩
  · refine ⟨_, _, exec_sinit hm, exec_kinit hm, ?_⟩
    exact congrArg s.withCore (keyerInit_schedulerInit hm.1 (hs.2 hm.1))

end Sys2Proof.Machine
end

section
/-! Reads of the registers and the accesses that have no meaning (20_memory.md R72, R74, 10_state.md R48, R52), and
`O47`, `O49`. -/

namespace Sys2Proof.Machine

variable {s : State} {rest : List Event} {n : RegNum}

theorem toNat_append_eq_add {m k : Nat} (x : BitVec m) (y : BitVec k) :
    (x ++ y).toNat = x.toNat * 2 ^ k + y.toNat := by
  rw [BitVec.toNat_append, ← Nat.shiftLeft_add_eq_or_of_lt y.isLt, Nat.shiftLeft_eq]

theorem bit_toNat (b : Bool) : (bit b).toNat = b.toNat := BitVec.toNat_ofBool b

/-- `STATUS` as a number (10_state.md R48). -/
theorem CoreState.status_toNat (c : CoreState) : c.status.toNat =
    c.fcode.toNat * 256 + c.fatal.toNat * 16 + c.panicked.toNat * 8 + c.keyed.toNat * 4 + c.kstate.code.toNat := by
  rw [CoreState.status, BitVec.toNat_setWidth_of_le (by decide)]
  simp only [toNat_append_eq_add, bit_toNat, BitVec.toNat_ofNat]
  omega

/-- The register map as the list of the values a read returns; `CMD` has none. -/
theorem regValue_toNat {c : CoreState} {r : RegName} (hr : r ≠ .cmd) : ∃ v, c.regValue r = some v ∧
    some v.toNat =
      [0, c.opa.toNat, c.opb.toNat, c.res.toNat, c.status.toNat, c.estart.toNat, c.edur.toNat, c.elock.toNat,
        c.dur.dot.toNat, c.dur.dash.toNat, c.dur.elementSpace.toNat, c.dur.letterSpace.toNat, c.dur.wordSpace.toNat,
        c.tres.dot.toNat, c.tres.dash.toNat, c.tres.elementSpace.toNat, c.tres.letterSpace.toNat,
        c.tres.wordSpace.toNat, c.cwpm.toNat, c.cscale.dot.toNat, c.cscale.dash.toNat, c.cscale.elementSpace.toNat,
        c.cscale.letterSpace.toNat, c.cscale.wordSpace.toNat][r.number.toNat]? := by
  cases r with
  | cmd => exact absurd rfl hr
  | dur e => exact ⟨_, rfl, by cases e <;> rfl⟩
  | tres e => exact ⟨_, rfl, by cases e <;> rfl⟩
  | cscale e => exact ⟨_, rfl, by cases e <;> rfl⟩
  | cwpm => exact ⟨_, rfl, congrArg some (snapshot_toNat c.cwpm)⟩
  | _ => exact ⟨_, rfl, rfl⟩

/-- The register an assigned number names. -/
theorem exists_number_eq (h : n.toNat ≤ 0x17) : ∃ r : RegName, r.number = n :=
  (Option.isSome_iff_exists.mp ((RegName.ofNumber_isSome_iff n).mpr h)).imp fun _ => RegName.number_of_ofNumber

theorem ofNumber_eq_none (h : 0x18 ≤ n.toNat) : RegName.ofNumber n = none := by
  rw [← Option.not_isSome_iff_eq_none, RegName.ofNumber_isSome_iff]
  omega

theorem step_mainRead (h : s.mainAccesses rest (.read n)) : step s = mainRead n (s.mainFetched rest) :=
  step_mainAccess h rfl

/-- Settles O47: `STATUS` by its fields, and a read by the register its number names. -/
theorem busReadReturnsTheRegister : Obligations.BusReadReturnsTheRegister := by
  refine ⟨fun c => ?_, fun s rest n h hlow hhigh => ?_⟩
  · rw [c.status_toNat]
    cases c.kstate <;> rfl
  · obtain ⟨r, rfl⟩ := exists_number_eq hhigh
    have hr : r ≠ .cmd := by
      rintro rfl
      exact absurd hlow (by decide)
    obtain ⟨v, hv, hlist⟩ := regValue_toNat (c := s.core) hr
    have hv' : (s.mainFetched rest).core.regValue r = some v := hv
    refine ⟨v, ?_, hlist⟩
    rw [step_mainRead h, mainRead, RegName.ofNumber_number]
    simp only [hv']

/-- A write to a number other than 0 never holds. -/
theorem step_mainWrite {v : Word} (h : s.mainAccesses rest (.write n v)) (hn : n ≠ 0x00#8) :
    step s = mainWrite n v (s.mainFetched rest) := by
  refine step_mainAccess h (Bool.eq_false_iff.mpr fun hholds => ?_)
  obtain ⟨v', hv, -⟩ := (holds_iff _ _).mp hholds
  cases hv
  exact hn rfl

theorem mainWrite_readOnly (hlow : 0x03 ≤ n.toNat) (hhigh : n.toNat ≤ 0x17) (v : Word) (s : State) :
    mainWrite n v s = .refused (.readOnlyRegister n) := by
  obtain ⟨r, rfl⟩ := exists_number_eq hhigh
  rw [mainWrite, RegName.ofNumber_number]
  cases r with
  | cmd => exact absurd hlow (by decide)
  | opa => exact absurd hlow (by decide)
  | opb => exact absurd hlow (by decide)
  | _ => rfl

/-- A word of another `OP` than `ENQ`'s is refused to every agent but `Main`: a command by its context, an illegal word
as an access (log entry 9). -/
theorem issue_refused_of_ne_enq {w : Cmd} (hf : s.core.fatal = false) (hs : s.issuer ≠ .main)
    (hw : w.toNat / 4096 ≠ 2) : ∃ r, issue w s = .refused r := by
  cases hd : decode w with
  | ok i =>
    rw [issue_of_decode hd]
    refine ⟨_, exec_refused_of_ne_main hf hs ?_⟩
    rintro k rfl
    rw [← (decode_eq_ok_iff.mp hd).2, encode_enq, toNat_append_fields] at hw
    have := k.isLt
    rw [BitVec.toNat_ofNat, BitVec.toNat_ofNat] at hw
    omega
  | error e =>
    have henq : ¬ isEnqWord w = true := fun h => hw (isEnqWord_iff.mp h).1
    rw [issue, hd]
    refine ⟨_, (unlessHalted_running hf).trans (if_neg ?_)⟩
    simp [hs, henq]

/-- Settles O49: access by access. -/
theorem meaninglessAccessesAreRefused : Obligations.MeaninglessAccessesAreRefused := by
  intro s rest n v
  refine ⟨step_mainRead, fun h hn => ?_, fun h hlow hhigh => ?_, fun op hf he => ?_, fun k hf he => ?_,
    fun k hf he hv => ?_⟩
  · rcases h with h | h
    · rw [step_mainRead h, mainRead, ofNumber_eq_none hn]
    · rw [step_mainWrite h (by rintro rfl; exact absurd hn (by decide)), mainWrite, ofNumber_eq_none hn]
  · rw [step_mainWrite h (by rintro rfl; exact absurd hlow (by decide)), mainWrite_readOnly hlow hhigh]
  · refine (step_access he).trans ((unlessHalted_running hf).trans ?_)
    cases op <;> rfl
  · rcases he with he | ⟨he, hn⟩
    · exact (step_access he).trans (unlessHalted_running hf)
    · exact (step_access he).trans ((unlessHalted_running hf).trans (if_neg hn))
  · rw [step_isrIssue hf he]
    refine issue_refused_of_ne_enq hf nofun ?_
    rw [BitVec.toNat_setWidth]
    omega

end Sys2Proof.Machine
end

section
/-! `Main`'s program, operation by operation (60_exceptions.md R201), and `O59`. -/

namespace Sys2Proof.Machine

variable {s t : State}

/-- A write of `Main` touches nothing but the core. -/
theorem mainWrite_frame {n : RegNum} {v : Word} (h : mainWrite n v s = .next t) : t = s.withCore t.core := by
  rcases mainWrite_cases h with ⟨-, hi⟩ | ⟨-, rfl⟩ | ⟨-, rfl⟩
  · exact (issue_frame hi).2
  · rfl
  · rfl

/-- A write of `Main` that holds is a `WAIT` that changes nothing. -/
theorem mainWrite_of_holds {n : RegNum} {v : Word} (hs : s.mainMayIssue) (hh : (BusOp.write n v).holds s.core = true) :
    mainWrite n v s = .next s := by
  obtain ⟨v', hv, hd, hp⟩ := (holds_iff _ _).mp hh
  cases hv
  exact (issue_of_decode hd s).trans (exec_wait_of_empty hs hp)

/-- What `Main`'s step does to `Main` and the core, by the operation it is at. -/
theorem mainTurn_operation_cases (hm : s.issuer = .main) (h : mainTurn s = .next t) :
    (s.main.current = none ∧ t = s) ∨
    (∃ n v, s.main.current = some (.read n) ∧ t = (s.pass (.read n)).receive v) ∨
    (∃ n e, s.main.current = some (.write n e) ∧
      ((∃ c, t = (s.pass (.write n e)).withCore c) ∨ (s.idle = true ∧ t = s))) ∨
    (∃ x e, s.main.current = some (.assign x e) ∧ t = s.pass (.assign x e)) ∨
    (∃ e target, s.main.current = some (.branch e target) ∧ t = s.pass (.branch e target)) := by
  obtain ⟨hf, h⟩ := unlessHalted_eq_next.mp h
  cases hcur : s.main.current with
  | none =>
    rw [hcur] at h
    cases h
    exact .inl ⟨rfl, rfl⟩
  | some op =>
    rw [hcur] at h
    cases op with
    | read n =>
      obtain ⟨-, v, -, -, rfl⟩ := mainRead_cases h
      exact .inr (.inl ⟨n, v, rfl, rfl⟩)
    | write n e =>
      refine .inr (.inr (.inl ⟨n, e, rfl, ?_⟩))
      by_cases hh : (BusOp.write n (e.eval s.main)).holds s.core = true
      · have hidle : s.idle = true := by simp [State.idle, hcur, MainOp.access, hf, hh]
        have hstay := (congrArg (mainWrite n _) (if_pos hh)).symm.trans h
        rw [mainWrite_of_holds ⟨hf, hm⟩ hh] at hstay
        cases hstay
        exact .inr ⟨hidle, rfl⟩
      · have hgo := (congrArg (mainWrite n _) (if_neg hh)).symm.trans h
        exact .inl ⟨_, mainWrite_frame hgo⟩
    | assign x e =>
      cases h
      exact .inr (.inr (.inr (.inl ⟨x, e, rfl, rfl⟩)))
    | branch e target =>
      cases h
      exact .inr (.inr (.inr (.inr ⟨e, target, rfl, rfl⟩)))

/-- Settles O59: operation by operation. -/
theorem mainRunsItsProgramInOrder : Obligations.MainRunsItsProgramInOrder := by
  intro s t rest he h
  rw [step_event he] at h
  rcases mainTurn_operation_cases rfl h with ⟨hcur, rfl⟩ | ⟨n, v, hcur, rfl⟩ |
    ⟨n, e, hcur, ⟨c, rfl⟩ | ⟨hidle, rfl⟩⟩ | ⟨x, e, hcur, rfl⟩ | ⟨e, target, hcur, rfl⟩ <;>
    rw [State.asAgent_main, State.began_main] at hcur <;> rw [hcur] <;> refine ⟨rfl, rfl, rfl, ?_⟩
  · exact ⟨rfl, rfl⟩
  · exact ⟨rfl, v, rfl⟩
  · exact .inl rfl
  · exact .inr ⟨hidle, rfl, rfl⟩
  · refine ⟨rfl, rfl, ?_, fun y hy => ?_⟩
    · exact (s.main.varValue_setVar x _ x).trans (if_pos rfl)
    · exact (s.main.varValue_setVar x _ y).trans (if_neg hy)
  · exact ⟨rfl, congrArg (fun p => { s.main with pos := p }) (ite_not _ _ _).symm⟩

end Sys2Proof.Machine
end

section
/-! The end of a run (70_reset_and_hazards.md R249), and `O60`. -/

namespace Sys2Proof.Machine

variable {s t : State}

/-- A run of one step more begins with a step that goes on. -/
theorem run_succ_eq_next {m : Nat} :
    Host.Core.run core (m + 1) s = .next t ↔ ∃ u : State, step s = .next u ∧ Host.Core.run core m u = .next t := by
  cases hs : step s with
  | next u => simp [run_succ_of_step hs]
  | fault r =>
    have hs' : core.step s = .fault r := hs
    simp [Host.Core.run, hs']
  | refused r =>
    have hs' : core.step s = .refused r := hs
    simp [Host.Core.run, hs']

/-- Before a good end, `runToEnd` ends well where it does from the next state. -/
theorem runToEnd_succ_eq_good (h : s.goodEnd = false) {n : Nat} :
    runToEnd (n + 1) s = .good t ↔ ∃ u : State, step s = .next u ∧ runToEnd n u = .good t := by
  cases hs : step s <;> simp [runToEnd, h, hs]

/-- `m` steps lead from `s` to `t`, past no good end before `t`. -/
def leadsTo (m : Nat) (s t : State) : Prop :=
  Host.Core.run core m s = .next t ∧
    ∀ k : Nat, k < m → ∃ u : State, Host.Core.run core k s = .next u ∧ ¬ u.goodEnd = true

theorem leadsTo_zero : leadsTo 0 s t ↔ t = s := by
  constructor
  · rintro ⟨hrun, -⟩
    cases hrun
    rfl
  · rintro rfl
    exact ⟨rfl, nofun⟩

/-- From a good end no step leads on. -/
theorem not_leadsTo_succ {m : Nat} (h : s.goodEnd = true) : ¬ leadsTo (m + 1) s t := by
  rintro ⟨-, hbefore⟩
  obtain ⟨u, hu, hnot⟩ := hbefore 0 (Nat.zero_lt_succ m)
  cases hu
  exact hnot h

theorem leadsTo_succ {m : Nat} (h : s.goodEnd = false) :
    leadsTo (m + 1) s t ↔ ∃ u : State, step s = .next u ∧ leadsTo m u t := by
  constructor
  · rintro ⟨hrun, hbefore⟩
    obtain ⟨u, hu, hrun⟩ := run_succ_eq_next.mp hrun
    refine ⟨u, hu, hrun, fun k hk => ?_⟩
    rw [← run_succ_of_step hu]
    exact hbefore (k + 1) (Nat.succ_lt_succ hk)
  · rintro ⟨u, hu, hrun, hbefore⟩
    refine ⟨run_succ_eq_next.mpr ⟨u, hu, hrun⟩, fun k hk => ?_⟩
    cases k with
    | zero => exact ⟨s, rfl, ne_true_of_eq_false h⟩
    | succ k =>
      rw [run_succ_of_step hu]
      exact hbefore k (Nat.lt_of_succ_lt_succ hk)

/-- A run ends well exactly at a good end that it is led to within its steps. -/
theorem runToEnd_eq_good_iff (n : Nat) :
    runToEnd n s = .good t ↔ t.goodEnd = true ∧ ∃ m : Nat, m ≤ n ∧ leadsTo m s t := by
  induction n generalizing s with
  | zero =>
    simp only [runToEnd, Nat.le_zero_eq, exists_eq_left, leadsTo_zero]
    cases h : s.goodEnd
    · refine iff_of_false nofun ?_
      rintro ⟨ht, rfl⟩
      exact absurd ht (ne_true_of_eq_false h)
    · constructor
      · rintro ⟨⟩
        exact ⟨h, rfl⟩
      · rintro ⟨-, rfl⟩
        rfl
  | succ n ih =>
    cases h : s.goodEnd
    · rw [runToEnd_succ_eq_good h]
      simp only [ih]
      constructor
      · rintro ⟨u, hu, ht, m, hm, hlead⟩
        exact ⟨ht, m + 1, Nat.succ_le_succ hm, (leadsTo_succ h).mpr ⟨u, hu, hlead⟩⟩
      · rintro ⟨ht, m, hm, hlead⟩
        cases m with
        | zero => exact absurd (leadsTo_zero.mp hlead ▸ ht) (ne_true_of_eq_false h)
        | succ m =>
          obtain ⟨u, hu, hlead⟩ := (leadsTo_succ h).mp hlead
          exact ⟨u, hu, ht, m, Nat.le_of_succ_le_succ hm, hlead⟩
    · rw [runToEnd_of_goodEnd h]
      constructor
      · rintro ⟨⟩
        exact ⟨h, 0, Nat.zero_le _, leadsTo_zero.mpr rfl⟩
      · rintro ⟨-, m, -, hlead⟩
        cases m with
        | zero => rw [leadsTo_zero.mp hlead]
        | succ m => exact absurd hlead (not_leadsTo_succ h)

/-- Settles O60: the good ends in their own terms, and the observation port by port. -/
theorem runEndsAtTheFirstGoodEnd : Obligations.RunEndsAtTheFirstGoodEnd := by
  refine ⟨fun n s t => ?_, fun t hf => ?_⟩
  · rw [runToEnd_eq_good_iff]
    simp only [leadsTo, State.goodEnd_iff]
  · simp [RunEnd.observation, State.observation, hf]

end Sys2Proof.Machine
end

section
/-! A bank of five equal values. -/

namespace Sys2Proof

theorem Bank.get_const {α : Type} (a : α) (e : Element) : (Bank.const a).get e = a := by
  cases e <;> rfl

end Sys2Proof
end

section
/-! Speed and ratios (41_timing.md R146, R147), and `O22`, `O23`. -/

namespace Sys2Proof.Machine

variable {wpm : BitVec 8} {scale : Bank Word}

/-- At a faster speed the unit is shorter, and so is every exact duration. -/
theorem exactDuration_strictAnti {w1 w2 : BitVec 8} (h1 : validConfig w1 scale = true) (hw : w1.toNat < w2.toNat)
    (e : Element) : exactDuration e w2 scale < exactDuration e w1 scale := by
  have hpos : (0 : ℚ) < w1.toNat := by exact_mod_cast (validConfig_wpm h1).1
  have hlt : (w1.toNat : ℚ) < w2.toNat := by exact_mod_cast hw
  have hk : (0 : ℚ) < Config.unitMultiplier e := by cases e <;> norm_num [Config.unitMultiplier]
  obtain ⟨-, hmin, -⟩ := validScale_iff_binary32Value.mp ((validConfig_iff.mp h1).2 e)
  have hscale : 0 < binary32Value (scale.get e) := binary32Value_scaleMin_pos.trans_le hmin
  unfold exactDuration
  gcongr

/-- Settles O22: rounding keeps the order of the exact durations; the two pairs of equal Dots are computed. -/
theorem fasterSpeedNeverLengthens : Obligations.FasterSpeedNeverLengthens := by
  refine ⟨fun w1 w2 scale h1 h2 hw e => ?_, by decide, by decide, by decide, by decide⟩
  have hexact := exactDuration_strictAnti h1 hw e
  refine ⟨?_, hexact⟩
  rw [← Nat.cast_le (α := ℤ), calcDurations_toNat h1, calcDurations_toNat h2]
  exact Int.floor_le_floor (by linarith)

/-- The bank of the scale 1.0 (41_timing.md R146). -/
def unitScale : Bank Word := Bank.const 0x3F800000#32

theorem binary32Value_one : binary32Value 0x3F800000#32 = 1 := by
  have hfin : binary32Finite 0x3F800000#32 := binary32Finite_of_lt (by decide)
  have hv : scaledValue 0x3F800000#32 = 2 ^ 149 := by decide
  rw [binary32Value_eq_scaledValue hfin, hv]
  norm_num

theorem validConfig_unitScale (hlow : 1 ≤ wpm.toNat) (hhigh : wpm.toNat ≤ 100) : validConfig wpm unitScale = true := by
  refine validConfig_iff.mpr ⟨⟨hlow, hhigh⟩, fun e => ?_⟩
  rw [unitScale, Bank.get_const]
  decide

/-- At scale 1.0 a unit is 1200 / wpm ticks, and a duration lies within one half of its exact multiple. -/
theorem calcDurations_unitScale (hlow : 1 ≤ wpm.toNat) (hhigh : wpm.toNat ≤ 100) (e : Element) :
    (((calcDurations wpm unitScale).get e).toNat : ℚ) ≤ Config.unitMultiplier e * (1200 / wpm.toNat) + 1 / 2 ∧
      Config.unitMultiplier e * (1200 / wpm.toNat) - 1 / 2 < (((calcDurations wpm unitScale).get e).toNat : ℚ) := by
  have hexact : exactDuration e wpm unitScale = Config.unitMultiplier e * (1200 / wpm.toNat) := by
    rw [exactDuration, unitScale, Bank.get_const, binary32Value_one]
    ring
  have hround : (((calcDurations wpm unitScale).get e).toNat : ℚ) = ⌊exactDuration e wpm unitScale + 1 / 2⌋ := by
    exact_mod_cast calcDurations_toNat (validConfig_unitScale hlow hhigh) e
  rw [hround, ← hexact]
  exact ⟨Int.floor_le _, by linarith [Int.lt_floor_add_one (exactDuration e wpm unitScale + 1 / 2)]⟩

/-- A rounded multiple differs from the multiple of the rounded unit by less than half of one more than the multiplier. -/
theorem abs_round_sub_mul_round_lt {a d : ℕ} {k : ℕ} {x : ℚ} (ha : (a : ℚ) ≤ k * x + 1 / 2 ∧ k * x - 1 / 2 < (a : ℚ))
    (hd : (d : ℚ) ≤ x + 1 / 2 ∧ x - 1 / 2 < (d : ℚ)) (hk : 0 < k) : 2 * |(a : ℤ) - k * d| < k + 1 := by
  obtain ⟨ha1, ha2⟩ := ha
  obtain ⟨hd1, hd2⟩ := hd
  have hkq : (0 : ℚ) < k := by exact_mod_cast hk
  have hq : 2 * |(a : ℚ) - k * d| < k + 1 := by
    rw [← lt_div_iff₀' two_pos, abs_lt]
    constructor <;> nlinarith
  exact_mod_cast hq

/-- Settles O23: equal multipliers give equal durations, and each is rounded from its multiple of one unit. -/
theorem unitScaleRatioLaws : Obligations.UnitScaleRatioLaws := by
  refine ⟨fun wpm hlow hhigh d hd => ?_, by decide, by decide⟩
  obtain rfl : d = calcDurations wpm unitScale := hd
  have hbound := calcDurations_unitScale hlow hhigh
  have hdot : (((calcDurations wpm unitScale).dot.toNat : ℕ) : ℚ) ≤ 1200 / wpm.toNat + 1 / 2 ∧
      1200 / (wpm.toNat : ℚ) - 1 / 2 < (((calcDurations wpm unitScale).dot.toNat : ℕ) : ℚ) := by
    simpa [Config.unitMultiplier, Bank.get] using hbound .dot
  have hratio (e : Element) (hk : 0 < Config.unitMultiplier e) := abs_round_sub_mul_round_lt (hbound e) hdot hk
  have hdash : 2 * |((calcDurations wpm unitScale).dash.toNat : ℤ) - 3 * (calcDurations wpm unitScale).dot.toNat| <
      3 + 1 := hratio .dash (by decide)
  have hword : 2 * |((calcDurations wpm unitScale).wordSpace.toNat : ℤ) - 7 * (calcDurations wpm unitScale).dot.toNat| <
      7 + 1 := hratio .wordSpace (by decide)
  have hle : |((calcDurations wpm unitScale).dash.toNat : ℤ) - 3 * (calcDurations wpm unitScale).dot.toNat| ≤ 1 := by
    omega
  refine ⟨rfl, rfl, fun e => ?_, hle, hle, by omega⟩
  obtain ⟨hupper, hlower⟩ := hbound e
  exact abs_le.mpr ⟨by linarith, by linarith⟩

end Sys2Proof.Machine
end

section
/-! The actions of the keyer, each by what it does in the case it is in (42_keyer.md R168, R171 to R176). -/

namespace Sys2Proof.Machine

variable {c : CoreState} {now d : Tick} {changed : Bool}

/-- `OffAction` writes `KEYED` only: the output stays on while the recorded duration has not elapsed. -/
theorem offAction_eq (now : Tick) (c : CoreState) : offAction now c =
    { c with keyed := c.keyed && decide ((now - c.estart).toNat < c.edur.toNat) } := by
  rcases offAction_cases now c with ⟨he, h⟩ | ⟨he, h⟩ <;> rw [h]
  · have hge : ¬ (now - c.estart).toNat < c.edur.toNat := not_lt.mpr (of_decide_eq_true he)
    rw [decide_eq_false hge, Bool.and_false]
    rfl
  · have hlt : (now - c.estart).toNat < c.edur.toNat := not_le.mp (of_decide_eq_false he)
    rw [decide_eq_true hlt, Bool.and_true]

theorem lockoutExpired_iff : c.lockoutExpired now = true ↔ (c.elock - c.estart).toNat ≤ (now - c.estart).toNat :=
  decide_eq_true_iff

/-- When `ElementAction` begins an element (42_keyer.md R175). -/
def CoreState.mayBegin (c : CoreState) (now : Tick) (changed : Bool) : Prop :=
  c.panicked = false ∧ (c.elock - c.estart).toNat ≤ (now - c.estart).toNat ∧ (changed = true ∨ c.keyed = false)

theorem elementAction_of_mayBegin (h : c.mayBegin now changed) :
    elementAction now changed d c = c.beginElement now d := by
  obtain ⟨hp, hl, hk⟩ := h
  have hl : c.lockoutExpired now = true := lockoutExpired_iff.mpr hl
  exact if_pos (by simp [hp, hl, hk])

/-- Where no element begins, `ElementAction` ends one as `OffAction` does (42_keyer.md R176). -/
theorem elementAction_of_not_mayBegin (h : ¬ c.mayBegin now changed) :
    elementAction now changed d c = offAction now c := by
  rcases elementAction_cases now changed d c with ⟨hp, hl, hk, -⟩ | ⟨-, -, he, ha⟩ | ⟨-, hend, ha⟩
  · exact absurd ⟨hp, lockoutExpired_iff.mp hl, hk⟩ h
  · rw [ha, offAction, if_pos he]
  · rw [ha, offAction]
    split_ifs with he
    · have hk : c.keyed = false := Bool.eq_false_iff.mpr fun hk => hend ⟨hk, he⟩
      exact CoreState.ext_fields rfl rfl rfl rfl rfl rfl rfl rfl rfl rfl hk rfl rfl rfl rfl rfl rfl
    · rfl

/-- The cached duration of an element's state (42_keyer.md R170). -/
def CoreState.elementDuration (c : CoreState) (k : KState) : Tick := if k = .dots then c.dur.dot else c.dur.dash

theorem stateAction_element {k : KState} (hk : k = .dots ∨ k = .dashes) :
    stateAction k now changed c = elementAction now changed (c.elementDuration k) c := by
  rcases hk with rfl | rfl <;> rfl

/-- Where no element begins only On has an action other than that of Off (42_keyer.md R170, R176). -/
theorem stateAction_of_no_element {k : KState} (h : (k = .dots ∨ k = .dashes) → ¬ c.mayBegin now changed) :
    stateAction k now changed c = if k = .on then onAction c else offAction now c := by
  cases k with
  | off => rfl
  | on => rfl
  | dots => exact elementAction_of_not_mayBegin (h (.inl rfl))
  | dashes => exact elementAction_of_not_mayBegin (h (.inr rfl))

/-- What the action leaves in the flags and the timers where an element begins (42_keyer.md R175). -/
theorem begun_writes {c e : CoreState} (hp : c.panicked = false) (h : e = c.beginElement now d) :
    e.keyed = true ∧ e.panicked = false ∧ e.estart = now ∧ e.edur = d ∧
      e.elock = now + e.edur + c.dur.elementSpace := by
  subst h
  exact ⟨rfl, hp, rfl, rfl, rfl⟩

/-- What the action leaves in the flags and the timers where no element begins (42_keyer.md R173, R174, R176). -/
theorem unbegun_writes {c e : CoreState} {k : KState} (h : e = if k = .on then onAction c else offAction now c) :
    e.keyed = (if k = .on then c.keyed || !c.panicked
      else c.keyed && decide ((now - c.estart).toNat < c.edur.toNat)) ∧
    e.panicked = c.panicked ∧ e.estart = c.estart ∧ e.edur = c.edur ∧ e.elock = c.elock := by
  subst h
  split_ifs with hk
  · rcases onAction_cases c with ⟨hp, ha⟩ | ⟨hp, ha⟩ <;> simp [ha, hp]
  · rw [offAction_eq]
    exact ⟨rfl, rfl, rfl, rfl, rfl⟩

end Sys2Proof.Machine
end

section
/-! A completed `KTICK` in one equation: the action of the next state on the registers it acts on (42_keyer.md R162). -/

namespace Sys2Proof.Machine

variable {s t : State}

/-- Where the next state is the current one, `KTICK`'s work is that state's action on the registers as they are. -/
theorem keyerTick_of_same_state {now : Tick} {p : Ports} {c : CoreState} (h : nextState c.kstate p = c.kstate) :
    keyerTick now p c = stateAction c.kstate now false c := by
  rw [keyerTick_eq, h, decide_eq_false (not_not_intro rfl)]
  rfl

/-- The registers the action of a `KTICK` from `s` to `t` begins with, where no panic is cleared: those of `s` with the
refreshed cache and the next state. -/
def actedOn (s t : State) : CoreState :=
  { s.core with kstate := t.core.kstate, dur := t.core.dur, cwpm := t.core.cwpm, cscale := t.core.cscale }

theorem ktickTo_core (h : s.ktickTo t) : t = s.withCore t.core ∧ t.core.kstate = nextState s.core.kstate s.ports ∧
    t.core = stateAction t.core.kstate s.core.opa (decide (t.core.kstate ≠ s.core.kstate))
      (if decide (t.core.kstate ≠ s.core.kstate) && s.core.panicked then (actedOn s t).clearPanic else actedOn s t) := by
  obtain ⟨c, hr, rfl⟩ := ktickTo_cases h
  obtain ⟨dur, cwpm, cscale, rfl⟩ : ∃ dur cwpm cscale, c = { s.core with dur, cwpm, cscale } :=
    ⟨_, _, _, refreshDurations_frame hr⟩
  obtain ⟨hkstate, -, -, -, -, -, -, -, hdur, -, hcwpm, hcscale⟩ :=
    keyerTick_frame s.core.opa s.ports { s.core with dur, cwpm, cscale }
  refine ⟨rfl, hkstate, ?_⟩
  simp only [actedOn, State.withCore_core, hkstate, hdur, hcwpm, hcscale]
  rw [keyerTick_eq]
  congr 1
  split_ifs <;> rfl

/-- Without a panic the action begins with the registers as they are. -/
theorem ktickTo_of_not_panicked (h : s.ktickTo t) (hp : s.core.panicked = false) :
    t.core = stateAction t.core.kstate s.core.opa (decide (t.core.kstate ≠ s.core.kstate)) (actedOn s t) := by
  have := (ktickTo_core h).2.2
  rwa [hp, Bool.and_false, if_neg Bool.false_ne_true] at this

/-- In a state that persists the action begins with the registers as they are, panicked or not. -/
theorem ktickTo_of_same_state (h : s.ktickTo t) (hk : t.core.kstate = s.core.kstate) :
    t.core = stateAction t.core.kstate s.core.opa false (actedOn s t) := by
  have := (ktickTo_core h).2.2
  rwa [decide_eq_false (not_not_intro hk), Bool.false_and, if_neg Bool.false_ne_true] at this

/-- Where the state changes in a panic, the action begins with the panic cleared. -/
theorem ktickTo_of_cleared (h : s.ktickTo t) (hp : s.core.panicked = true) (hk : t.core.kstate ≠ s.core.kstate) :
    t.core = stateAction t.core.kstate s.core.opa true (actedOn s t).clearPanic := by
  have := (ktickTo_core h).2.2
  rwa [decide_eq_true hk, hp, Bool.and_self, if_pos rfl] at this

end Sys2Proof.Machine
end

section
/-! What a completed `KTICK` does to `KEYED`, `PANICKED` and the timers (42_keyer.md sections 3 and 4, 41_timing.md R153),
and `O28` to `O34`. -/

namespace Sys2Proof.Machine

variable {s t : State}

/-- Settles O28: the element action begins an element. -/
theorem elementBeginsWhenLockoutExpired : Obligations.ElementBeginsWhenLockoutExpired := by
  intro s t h hp hk hlock hchanged
  have ht := ktickTo_of_not_panicked h hp
  have hbegin : (actedOn s t).mayBegin s.core.opa (decide (t.core.kstate ≠ s.core.kstate)) :=
    ⟨hp, hlock, hchanged.imp_left decide_eq_true⟩
  rw [stateAction_element hk, elementAction_of_mayBegin hbegin] at ht
  exact begun_writes (c := actedOn s t) hp ht

/-- Settles O29: the lockout holds, or the output is on in a state that persists; so no element begins. -/
theorem elementEndsWhenDurationElapsed : Obligations.ElementEndsWhenDurationElapsed := by
  intro s t h hp hk hnot
  have hnone : ¬ (actedOn s t).mayBegin s.core.opa (decide (t.core.kstate ≠ s.core.kstate)) := by
    rintro ⟨-, hlock, hchanged⟩
    rcases hnot with hlt | ⟨hsame, hkeyed⟩
    · exact absurd hlock (not_le.mpr hlt)
    · rcases hchanged with hchanged | hsilent
      · exact of_decide_eq_true hchanged hsame
      · exact absurd hkeyed (ne_true_of_eq_false hsilent)
  have hon : t.core.kstate ≠ .on := by rcases hk with hk | hk <;> simp [hk]
  have ht := (ktickTo_of_not_panicked h hp).trans (stateAction_of_no_element fun _ => hnone)
  obtain ⟨hkeyed, hpanicked, htimers⟩ := unbegun_writes ht
  exact ⟨hkeyed.trans (if_neg hon), hpanicked.trans hp, htimers⟩

/-- Settles O30: in Off and On no element begins. -/
theorem offAndOnActions : Obligations.OffAndOnActions := by
  intro s t h hp hk
  have helement : ¬ (t.core.kstate = .dots ∨ t.core.kstate = .dashes) := by rcases hk with hk | hk <;> simp [hk]
  have ht := (ktickTo_of_not_panicked h hp).trans (stateAction_of_no_element (absurd · helement))
  obtain ⟨hkeyed, hpanicked, htimers⟩ := unbegun_writes ht
  refine ⟨hkeyed.trans (if_congr Iff.rfl ?_ rfl), hpanicked.trans hp, htimers⟩
  simp [actedOn, hp]

/-- Settles O31: with the panic cleared the timers are 0, so no duration and no lockout is left. -/
theorem stateChangeClearsPanic : Obligations.StateChangeClearsPanic := by
  intro s t h hp hchanged
  have ht := ktickTo_of_cleared h hp hchanged
  by_cases hk : t.core.kstate = .dots ∨ t.core.kstate = .dashes
  · have hbegin : (actedOn s t).clearPanic.mayBegin s.core.opa true := ⟨rfl, by simp, .inl rfl⟩
    rw [stateAction_element hk, elementAction_of_mayBegin hbegin] at ht
    obtain ⟨hkeyed, hpanicked, htimers⟩ := begun_writes rfl ht
    have hoff : t.core.kstate ≠ .off ∧ t.core.kstate ≠ .on := by rcases hk with hk | hk <;> simp [hk]
    exact ⟨hpanicked, (absurd · hoff.1), fun _ => hkeyed, (absurd · (not_or.mpr hoff)), fun _ => ⟨hkeyed, htimers⟩⟩
  · obtain ⟨hkeyed, hpanicked, htimers⟩ := unbegun_writes (ht.trans (stateAction_of_no_element (absurd · hk)))
    refine ⟨hpanicked, fun hoff => ?_, fun hon => ?_, fun _ => htimers, (absurd · hk)⟩
    · rw [hkeyed, hoff]
      exact Bool.and_false _
    · rw [hkeyed, hon]
      exact Bool.or_true _

/-- Settles O32: no element begins in a panic, and neither Off nor On keys a silent output then. -/
theorem panicPersistsWhileStateHolds : Obligations.PanicPersistsWhileStateHolds := by
  intro s t h hsilent hp hk
  have hnone : ¬ (actedOn s t).mayBegin s.core.opa false := fun hbegin => absurd hp (ne_true_of_eq_false hbegin.1)
  have ht := (ktickTo_of_same_state h hk).trans (stateAction_of_no_element fun _ => hnone)
  obtain ⟨hkeyed, hpanicked, htimers⟩ := unbegun_writes ht
  refine ⟨?_, hpanicked.trans hp, htimers⟩
  rw [hkeyed]
  simp [actedOn, hsilent hp, hp]

/-- Settles O33: the state persists, and On or Off has no element to begin. -/
theorem squeezeHoldsTheState : Obligations.SqueezeHoldsTheState := by
  intro s t h hsk hl hr
  have hk : t.core.kstate = s.core.kstate := by
    rw [(ktickTo_core h).2.1, nextState_eq_inputs]
    simp [hsk, hl, hr]
  have ht := ktickTo_of_same_state h hk
  refine ⟨hk, fun hon hp => ?_, fun hoff hsilent => ?_⟩
  · obtain ⟨hkeyed, -⟩ := unbegun_writes (ht.trans (stateAction_of_no_element (by simp [hk, hon])))
    rw [hkeyed]
    simp [actedOn, hk, hon, hp]
  · obtain ⟨hkeyed, -⟩ := unbegun_writes (ht.trans (stateAction_of_no_element (by simp [hk, hoff])))
    rw [hkeyed]
    simp [actedOn, hk, hoff, hsilent]

/-- Settles O34: with the output on and the state persisting no element begins, and only a beginning writes the timers. -/
theorem speedChangeKeepsElementInProgress : Obligations.SpeedChangeKeepsElementInProgress := by
  intro s t h hkeyed hk
  have hnone : ¬ (actedOn s t).mayBegin s.core.opa false := by
    rintro ⟨-, -, hchanged | hsilent⟩
    · exact absurd hchanged Bool.false_ne_true
    · exact absurd hkeyed (ne_true_of_eq_false hsilent)
  have ht := (ktickTo_of_same_state h hk).trans (stateAction_of_no_element fun _ => hnone)
  exact (unbegun_writes ht).2.2

end Sys2Proof.Machine
end

section
/-! `KTICK` twice (42_keyer.md R179, log entry 16), and `O36`, `O37`. -/

namespace Sys2Proof.Machine

variable {s t : State} {c : CoreState} {now : Tick} {changed : Bool}

theorem nextState_nextState (cur : KState) (p : Ports) : nextState (nextState cur p) p = nextState cur p := by
  unfold nextState
  split_ifs <;> rfl

/-- A second `KTICK` finds the cache fresh and the state reached, and acts on the registers as they are. -/
theorem exec_ktick_again (h : s.ktickTo t) :
    exec .ktick t = .next (t.withCore (stateAction t.core.kstate s.core.opa false t.core)) := by
  obtain ⟨c, hr, rfl⟩ := ktickTo_cases h
  obtain ⟨hkstate, -, -, hopa, -, -, -, -, -, -, hcwpm, hcscale⟩ := keyerTick_frame s.core.opa s.ports c
  have hc : c.opa = s.core.opa := by rw [refreshDurations_frame hr]
  generalize keyerTick s.core.opa s.ports c = d at *
  have hfresh : refreshDurations s.ports d = some d := by
    have hstale := cacheStale_after_refresh hr
    rw [CoreState.cacheStale, ← hcwpm, ← hcscale] at hstale
    exact if_neg (ne_true_of_eq_false hstale)
  have hnext : nextState d.kstate s.ports = d.kstate := by rw [hkstate, nextState_nextState]
  have hwork : keyerTick d.now s.ports d = stateAction d.kstate s.core.opa false d := by
    rw [keyerTick_of_same_state hnext, CoreState.now, hopa, hc]
  rw [exec_ktick_of_refresh_some (s := s.withCore d) ⟨h.2.2, h.1.2⟩ hfresh, State.withCore_ports, hwork]
  rfl

theorem onAction_onAction (c : CoreState) : onAction (onAction c) = onAction c := by
  rcases onAction_cases c with ⟨hp, h⟩ | ⟨hp, h⟩ <;> rw [h]
  · exact h
  · exact if_neg (ne_true_of_eq_false hp)

theorem offAction_offAction (now : Tick) (c : CoreState) : offAction now (offAction now c) = offAction now c := by
  simp only [offAction_eq, Bool.and_assoc, Bool.and_self]

/-- An element of a positive duration does not end in the tick it begins in. -/
theorem offAction_beginElement {d : Tick} (hd : 0 < d.toNat) :
    offAction now (c.beginElement now d) = c.beginElement now d := by
  refine if_neg ?_
  simp [CoreState.durationElapsed, elapsedTicks, hd.ne']

/-- The action of a state is done once, but for the late end of an element in a state that persists. -/
theorem stateAction_again {k : KState} (hd : 0 < (c.elementDuration k).toNat)
    (hlate : ¬ ((k = .dots ∨ k = .dashes) ∧ changed = false ∧ c.keyed = true ∧
      (c.elock - c.estart).toNat ≤ (now - c.estart).toNat)) :
    stateAction k now false (stateAction k now changed c) = stateAction k now changed c := by
  by_cases hbegin : (k = .dots ∨ k = .dashes) ∧ c.mayBegin now changed
  · obtain ⟨hk, hbegin⟩ := hbegin
    have hnone : ¬ (c.beginElement now (c.elementDuration k)).mayBegin now false := by
      rintro ⟨-, -, hchanged | hsilent⟩
      · exact Bool.false_ne_true hchanged
      · exact Bool.false_ne_true hsilent.symm
    rw [stateAction_element (changed := changed) hk, elementAction_of_mayBegin hbegin, stateAction_element hk,
      elementAction_of_not_mayBegin hnone, offAction_beginElement hd]
  · have hfirst := stateAction_of_no_element fun hk hm => hbegin ⟨hk, hm⟩
    rw [hfirst]
    split_ifs with hon
    · subst hon
      exact onAction_onAction c
    · rw [stateAction_of_no_element, if_neg hon, offAction_offAction]
      rw [offAction_eq]
      rintro hk ⟨hp, hlock, hchanged⟩
      have hkeyed : c.keyed = true := by
        by_contra hoff
        exact hbegin ⟨hk, hp, hlock, .inr (Bool.eq_false_iff.mpr hoff)⟩
      have hsame : changed = false := Bool.eq_false_iff.mpr fun hc => hbegin ⟨hk, hp, hlock, .inl hc⟩
      exact hlate ⟨hk, hsame, hkeyed, hlock⟩

/-- After a completed `KTICK` the cache is not empty, and by the invariants it holds positive durations. -/
theorem cachedDuration_pos (hs : s.core.Inv) (h : s.ktickTo t) (e : Element) : 0 < (t.core.dur.get e).toNat := by
  obtain ⟨hinv, hcwpm⟩ : t.core.Inv ∧ t.core.cwpm ≠ 0#8 := by
    refine ⟨exec_keeps_inv hs h.2.1, fun h0 => ?_⟩
    obtain ⟨c, hr, rfl⟩ := ktickTo_cases h
    obtain ⟨-, -, -, -, -, -, -, -, -, -, hcwpm, -⟩ := keyerTick_frame s.core.opa s.ports c
    have hstale := cacheStale_after_refresh hr
    simp [CoreState.cacheStale, ← hcwpm, show (keyerTick s.core.opa s.ports c).cwpm = 0#8 from h0] at hstale
  rcases hinv.cache with ⟨hempty, -⟩ | ⟨hv, hd⟩
  · exact absurd hempty hcwpm
  · rw [hd]
    exact (calcDurations_bounds hv e).1

/-- Settles O36: the second call does the action of the same state again. -/
theorem ktickTwiceIsKtickOnce : Obligations.KtickTwiceIsKtickOnce := by
  intro s t hs h hexcept
  have ht := (ktickTo_core h).2.2
  have hd : 0 < ((actedOn s t).elementDuration t.core.kstate).toNat := by
    unfold CoreState.elementDuration
    split_ifs
    · exact cachedDuration_pos hs h .dot
    · exact cachedDuration_pos hs h .dash
  have hagain := stateAction_again (now := s.core.opa) (changed := decide (t.core.kstate ≠ s.core.kstate))
    (c := if decide (t.core.kstate ≠ s.core.kstate) && s.core.panicked then (actedOn s t).clearPanic else actedOn s t)
    (k := t.core.kstate) (by split_ifs <;> exact hd) ?_
  · rw [← ht] at hagain
    rw [exec_ktick_again h, hagain, State.withCore_self]
  · rintro ⟨helement, hsame, hkeyed, hlock⟩
    rw [hsame, Bool.false_and, if_neg Bool.false_ne_true] at hkeyed hlock
    have hk : t.core.kstate = s.core.kstate := not_not.mp (of_decide_eq_false hsame)
    exact hexcept ⟨hk, hk ▸ helement, hkeyed, hlock⟩

/-- The dot of 95_test_vectors.md section 2.7, begun at 1 and still keyed at 200, past its lockout. -/
def lateDot : State where
  core := { CoreState.reset with
    opa := 200#32, kstate := .dots, keyed := true, estart := 1#32, edur := 60#32, elock := 121#32,
    dur := ⟨60#32, 180#32, 60#32, 180#32, 420#32⟩, cwpm := 20#8, cscale := unitScale }
  ports := { Ports.reset with inL := true }
  main := ⟨[], 0, [], []⟩
  events := []
  issuer := .main
  draws := 0

theorem lateDot_inv : lateDot.core.Inv :=
  ⟨nofun, ⟨nofun, fun _ => rfl⟩, (by decide : (60#32).toNat ≤ (121#32 - 1#32 : Tick).toNat),
    (by decide : (0#8).toNat < 64), .inr ⟨by decide, by decide⟩⟩

/-- Settles O37: the first call ends the dot, the second begins the next. -/
theorem lateKtickTwiceBeginsAnElement : Obligations.LateKtickTwiceBeginsAnElement :=
  ⟨lateDot, lateDot.withCore lateDot.core.deenergize, lateDot.withCore (lateDot.core.beginElement 200#32 60#32),
    lateDot_inv, fun e => by cases e <;> decide, ⟨⟨rfl, rfl⟩, rfl, rfl⟩, ⟨⟨rfl, rfl⟩, rfl, rfl⟩, rfl, rfl⟩

end Sys2Proof.Machine
end

section
/-! A held dot paddle (42_keyer.md R177), and `O35`. -/

namespace Sys2Proof.Machine

variable {c : CoreState} {p : Ports} {begun : Tick} {m : Nat}

/-- The registers `m` ticks into an element of a train of dots that began at the tick `begun`. -/
def trainAt (c : CoreState) (begun : Tick) (m : Nat) : CoreState :=
  { c with
    opa := begun + BitVec.ofNat 32 m, kstate := .dots, keyed := decide (m < c.dur.dot.toNat), estart := begun,
    edur := c.dur.dot, elock := begun + c.dur.dot + c.dur.elementSpace }

/-- The ticks from the beginning of one dot of a train to that of the next. -/
def trainPeriod (c : CoreState) : Nat := c.dur.dot.toNat + max c.dur.elementSpace.toNat 1

theorem trainAt_zero (hd : 1 ≤ c.dur.dot.toNat) (now : Tick) :
    trainAt c now 0 = ((c.setOpa now).setKstate .dots).beginElement now c.dur.dot :=
  CoreState.ext_fields rfl rfl (BitVec.add_zero _) rfl rfl rfl rfl rfl rfl rfl (decide_eq_true hd) rfl rfl rfl rfl rfl rfl

/-- The first call of a train: Dots is entered with the lockout expired, and a dot begins. -/
theorem keyerTick_enters_train {now : Tick} (hnext : nextState c.kstate p = .dots) (hk : c.kstate ≠ .dots)
    (hp : c.panicked = false) (hlock : (c.elock - c.estart).toNat ≤ (now - c.estart).toNat)
    (hd : 1 ≤ c.dur.dot.toNat) : keyerTick now p (c.setOpa now) = trainAt c now 0 := by
  have hbegin : ((c.setOpa now).setKstate .dots).mayBegin now true := ⟨hp, hlock, .inl rfl⟩
  rw [keyerTick_eq, CoreState.setOpa_kstate, hnext, decide_eq_true hk.symm, CoreState.setOpa_panicked, hp, Bool.and_false,
    if_neg Bool.false_ne_true, stateAction_element (.inl rfl), elementAction_of_mayBegin hbegin, trainAt_zero hd]
  rfl

/-- When the next call finds the lockout of the dot in progress expired and the output silent. -/
theorem trainAt_mayBegin_iff {x : Word} (hp : c.panicked = false)
    (hrange : c.dur.dot.toNat + c.dur.elementSpace.toNat < 2 ^ 31) (hm : m < trainPeriod c) :
    ((trainAt c begun m).setOpa x).mayBegin (begun + BitVec.ofNat 32 (m + 1)) false ↔ m + 1 = trainPeriod c := by
  have hlock : (begun + c.dur.dot + c.dur.elementSpace - begun).toNat = c.dur.dot.toNat + c.dur.elementSpace.toNat := by
    bv_omega
  have helapsed : (begun + BitVec.ofNat 32 (m + 1) - begun).toNat = m + 1 := by
    unfold trainPeriod at hm
    bv_omega
  have hmay : ((trainAt c begun m).setOpa x).mayBegin (begun + BitVec.ofNat 32 (m + 1)) false ↔
      c.dur.dot.toNat + c.dur.elementSpace.toNat ≤ m + 1 ∧ ¬ m < c.dur.dot.toNat := by
    rw [← hlock, ← helapsed]
    simp [CoreState.mayBegin, trainAt, hp]
  rw [hmay]
  unfold trainPeriod at hm ⊢
  omega

/-- Between two beginnings the next call is one tick further into the element. -/
theorem offAction_trainAt (hrange : m + 1 < 2 ^ 32) :
    offAction (begun + BitVec.ofNat 32 (m + 1)) ((trainAt c begun m).setOpa (begun + BitVec.ofNat 32 (m + 1))) =
      trainAt c begun (m + 1) := by
  have helapsed : (begun + BitVec.ofNat 32 (m + 1) - begun).toNat = m + 1 := by bv_omega
  have hkeyed : (decide (m < c.dur.dot.toNat) &&
      decide ((begun + BitVec.ofNat 32 (m + 1) - begun).toNat < c.dur.dot.toNat)) = decide (m + 1 < c.dur.dot.toNat) := by
    rw [helapsed, ← Bool.decide_and, decide_eq_decide]
    omega
  rw [offAction_eq]
  exact CoreState.ext_fields rfl rfl rfl rfl rfl rfl rfl rfl rfl rfl hkeyed rfl rfl rfl rfl rfl rfl

/-- The next call of a train: the dot goes on, or ends, or after a whole period the next one begins. -/
theorem keyerTick_train {now : Tick} (hnext : nextState .dots p = .dots) (hp : c.panicked = false)
    (hd : 1 ≤ c.dur.dot.toNat) (hrange : c.dur.dot.toNat + c.dur.elementSpace.toNat < 2 ^ 31) (hm : m < trainPeriod c)
    (hnow : now = begun + BitVec.ofNat 32 (m + 1)) :
    keyerTick now p ((trainAt c begun m).setOpa now) =
      if m + 1 = trainPeriod c then trainAt c now 0 else trainAt c begun (m + 1) := by
  subst hnow
  have hdots : ((trainAt c begun m).setOpa (begun + BitVec.ofNat 32 (m + 1))).kstate = .dots := rfl
  rw [keyerTick_of_same_state hnext, hdots, stateAction_element (.inl rfl)]
  split_ifs with hperiod
  · rw [elementAction_of_mayBegin ((trainAt_mayBegin_iff hp hrange hm).mpr hperiod), trainAt_zero hd]
    rfl
  · rw [elementAction_of_not_mayBegin (mt (trainAt_mayBegin_iff hp hrange hm).mp hperiod)]
    refine offAction_trainAt ?_
    unfold trainPeriod at hm
    omega

/-- A `KTICK` with a fresh cache in a state that differs from `s` in the keyer's registers and `OPA` only. -/
theorem exec_ktick_of_same_key {s : State} (d : CoreState) (hs : s.mainMayIssue) (hkey : ¬ s.keyDiffers)
    (hfatal : d.fatal = s.core.fatal) (hcwpm : d.cwpm = s.core.cwpm) (hcscale : d.cscale = s.core.cscale) :
    exec .ktick (s.withCore d) = .next (s.withCore (keyerTick d.opa s.ports d)) := by
  have hkey' : ¬ (s.withCore d).keyDiffers := by
    rw [State.keyDiffers, State.withCore_core, hcwpm, hcscale]
    exact hkey
  exact exec_ktick_of_refresh_some ⟨hfatal.trans hs.1, hs.2⟩ (refreshDurations_of_key hkey')

/-- The calls of a train, by the whole periods `q` and the ticks `m` that have passed since the first. -/
theorem ktickEveryTick_train {s : State} {t0 : Tick} (hs : s.mainMayIssue) (hkey : ¬ s.keyDiffers)
    (hnext : ∀ cur, nextState cur s.ports = .dots) (hp : s.core.panicked = false) (hk : s.core.kstate ≠ .dots)
    (hlock : (s.core.elock - s.core.estart).toNat ≤ (t0 - s.core.estart).toNat) (hd : 1 ≤ s.core.dur.dot.toNat)
    (hrange : s.core.dur.dot.toNat + s.core.dur.elementSpace.toNat < 2 ^ 31) (n : Nat) :
    ∃ q m : Nat, n = trainPeriod s.core * q + m ∧ m < trainPeriod s.core ∧
      ktickEveryTick t0 s n = .next (s.withCore
        (trainAt s.core (t0 + BitVec.ofNat 32 (trainPeriod s.core * q)) m)) := by
  have hperiod : 0 < trainPeriod s.core := by
    unfold trainPeriod
    omega
  induction n with
  | zero =>
    refine ⟨0, 0, rfl, hperiod, ?_⟩
    rw [ktickEveryTick, exec_ktick_of_same_key (s.core.setOpa t0) hs hkey rfl rfl rfl, CoreState.setOpa_opa,
      keyerTick_enters_train (hnext _) hk hp hlock hd, Nat.mul_zero]
    simp
  | succ n ih =>
    obtain ⟨q, m, hn, hm, ht⟩ := ih
    have hnow : t0 + BitVec.ofNat 32 (n + 1) =
        t0 + BitVec.ofNat 32 (trainPeriod s.core * q) + BitVec.ofNat 32 (m + 1) := by
      rw [BitVec.add_assoc, ← BitVec.ofNat_add, hn, Nat.add_assoc]
    have hstep : ktickEveryTick t0 s (n + 1) = .next (s.withCore (if m + 1 = trainPeriod s.core
        then trainAt s.core (t0 + BitVec.ofNat 32 (n + 1)) 0
        else trainAt s.core (t0 + BitVec.ofNat 32 (trainPeriod s.core * q)) (m + 1))) := by
      rw [ktickEveryTick, ht]
      refine (exec_ktick_of_same_key (.setOpa _ (trainAt s.core _ m)) hs hkey rfl rfl rfl).trans ?_
      rw [CoreState.setOpa_opa, keyerTick_train (hnext _) hp hd hrange hm hnow]
    by_cases hlast : m + 1 = trainPeriod s.core
    · have hn' : n + 1 = trainPeriod s.core * (q + 1) := by rw [Nat.mul_succ, hn, Nat.add_assoc, hlast]
      rw [if_pos hlast, hn'] at hstep
      exact ⟨q + 1, 0, hn', hperiod, hn' ▸ hstep⟩
    · rw [if_neg hlast] at hstep
      exact ⟨q, m + 1, by rw [hn, Nat.add_assoc], by omega, hstep⟩

/-- Settles O35: call by call, `q` whole periods and `m` ticks after the first. -/
theorem heldPaddleGivesDriftFreeTrain : Obligations.HeldPaddleGivesDriftFreeTrain := by
  rintro s t0 _ _ hs hkey hsk hdot hdash hp hk hlock rfl rfl hpos hrange n
  have hnext (cur : KState) : nextState cur s.ports = .dots := by
    have hsqueeze : ¬ (s.ports.inL = true ∧ s.ports.inR = true) := by
      rintro ⟨hl, hr⟩
      simp [hl, hr] at hdash
    rw [nextState_eq_inputs]
    simp [hsk, hsqueeze, hdot]
  obtain ⟨q, m, hn, hm, ht⟩ := ktickEveryTick_train hs hkey hnext hp hk hlock hpos hrange n
  refine ⟨_, ht, rfl, ?_⟩
  rw [hn, ← trainPeriod, Nat.mul_add_mod, Nat.mod_eq_of_lt hm]
  rfl

end Sys2Proof.Machine
end
